-- ==== Sys2Proof/Word.lean ====
section
/-! DEFINITION. The 64-bit word of the register port and the host's byte (00_scope.md R8, R9). -/

namespace Sys2Proof

/-- A register of the port: 64 bits (20_memory.md R56). -/
abbrev Word := BitVec 64

/-- A byte on a byte-addressed bus (20_memory.md R55). -/
abbrev Byte := BitVec 8

end Sys2Proof
end

