-- ==== Sys2Proof/Syntax.lean ====
section
/-! DEFINITION. The commands of the core, one constructor per row of spec/opcode_table.json (30_encoding.md R71, R74). -/

namespace Sys2Proof

/-- A command word that selects a row of 30_encoding.md R74, with the fields the row uses as they stand in the word
(R73). A field may be outside its legal range: the command then takes the error the spec names (60_exceptions.md R162). -/
inductive Instr where
  /-- OP 0x1: one block through the 16 rounds (43_block_cipher.md R152). -/
  | encrypt
  /-- OP 0x2: the 16 round keys of KEY (41_key_schedule.md R133). -/
  | keysched
  /-- OP 0x3: one Feistel round (42_feistel_round.md R142). -/
  | round
  /-- OP 0x4: the S-box bank (40_primitives.md R124). -/
  | sbox
  /-- OP 0x5: the bit permuter with table TSEL (40_primitives.md R121). -/
  | permute (tsel : BitVec 3)
  /-- OP 0x6: left rotation of the low WIDTH bits by AMT (40_primitives.md R122). -/
  | rotl (width : BitVec 7) (amt : BitVec 6)
  /-- OP 0x7: right rotation of the low WIDTH bits by AMT (40_primitives.md R123). -/
  | rotr (width : BitVec 7) (amt : BitVec 6)
  deriving DecidableEq, Repr

end Sys2Proof
end

