-- ==== Sys2Proof/WellFormed.lean ====
section
/-! DEFINITION. The legal operand ranges of a command (30_encoding.md R73). -/

namespace Sys2Proof

/-- "The legal ranges are: TSEL 0..5; WIDTH 1..64; AMT 0..WIDTH-1" (30_encoding.md R73). -/
def Instr.wf : Instr → Bool
  | .encrypt => true
  | .keysched => true
  | .round => true
  | .sbox => true
  | .permute t => decide (t.toNat ≤ 5)
  | .rotl n a => decide (1 ≤ n.toNat) && decide (n.toNat ≤ 64) && decide (a.toNat < n.toNat)
  | .rotr n a => decide (1 ≤ n.toNat) && decide (n.toNat ≤ 64) && decide (a.toNat < n.toNat)

end Sys2Proof
end

