-- ==== Sys2Proof/Decode.lean ====
section
/-! DEFINITION. The decoder of 30_encoding.md R74 and R75, and after it the encoder of R78. -/

namespace Sys2Proof

/-- The errors a request can end in (60_exceptions.md R162); code 0, NONE, is the absence of one. -/
inductive ErrKind where
  /-- Code 1: the word matches no row of 30_encoding.md R74. -/
  | illegalCmd
  /-- Code 2: PERMUTE with TSEL 6 or 7. -/
  | badTsel
  /-- Code 3: ROTL or ROTR with WIDTH 0 or above 64. -/
  | invalidWidth
  /-- Code 4: ROTL or ROTR with AMT >= WIDTH. -/
  | invalidShift
  /-- Code 5: an operand has a bit set at or above its declared width (60_exceptions.md R163). -/
  | widthError
  /-- Code 6: never raised, the tables are fixed and valid (40_primitives.md R116). -/
  | invalidTable
  deriving DecidableEq, Repr

/-- "A word w selects a row when `w AND mask = match`" (30_encoding.md R74). -/
def rowHit (match_ mask : Word) (w : Word) : Bool := w &&& mask == match_

/-- TSEL = w[10:8] (30_encoding.md R70). -/
def fieldTsel (w : Word) : BitVec 3 := w.extractLsb' 8 3

/-- WIDTH = w[22:16] (30_encoding.md R70). -/
def fieldWidth (w : Word) : BitVec 7 := w.extractLsb' 16 7

/-- AMT = w[29:24] (30_encoding.md R70). -/
def fieldAmt (w : Word) : BitVec 6 := w.extractLsb' 24 6

/-- The row of 30_encoding.md R74 that a word selects, with its fields as they stand; none where no row matches (R76). -/
def decodeRow (w : Word) : Option Instr :=
  if rowHit 0x0000000000000001 0xFFFFFFFFFFFFFFFF w then some .encrypt
  else if rowHit 0x0000000000000002 0xFFFFFFFFFFFFFFFF w then some .keysched
  else if rowHit 0x0000000000000003 0xFFFFFFFFFFFFFFFF w then some .round
  else if rowHit 0x0000000000000004 0xFFFFFFFFFFFFFFFF w then some .sbox
  else if rowHit 0x0000000000000005 0xFFFFFFFFFFFFF8FF w then some (.permute (fieldTsel w))
  else if rowHit 0x0000000000000006 0xFFFFFFFFC080FFFF w then some (.rotl (fieldWidth w) (fieldAmt w))
  else if rowHit 0x0000000000000007 0xFFFFFFFFC080FFFF w then some (.rotr (fieldWidth w) (fieldAmt w))
  else none

/-- The width and amount checks of a rotation, in the order of 30_encoding.md R75. -/
def rotationCheck (width : BitVec 7) (amt : BitVec 6) : Option ErrKind :=
  if width.toNat = 0 ∨ width.toNat > 64 then some .invalidWidth
  else if amt.toNat ≥ width.toNat then some .invalidShift
  else none

/-- The field errors of 30_encoding.md R75: what a selected row still refuses. -/
def fieldCheck : Instr → Option ErrKind
  | .encrypt => none
  | .keysched => none
  | .round => none
  | .sbox => none
  | .permute t => if t.toNat ≥ 6 then some .badTsel else none
  | .rotl n a => rotationCheck n a
  | .rotr n a => rotationCheck n a

/-- `Decode(w)` of 30_encoding.md R75: a command, or the error its word ends in. -/
def decode (w : Word) : Except ErrKind Instr :=
  match decodeRow w with
  | none => .error .illegalCmd
  | some i =>
    match fieldCheck i with
    | some e => .error e
    | none => .ok i

/-- The command word of a command (30_encoding.md R78): OP, with TSEL at bit 8, WIDTH at bit 16 and AMT at bit 24. -/
def encode : Instr → Word
  | .encrypt => 0x1
  | .keysched => 0x2
  | .round => 0x3
  | .sbox => 0x4
  | .permute t => 0x5 ||| (t.setWidth 64 <<< 8)
  | .rotl n a => 0x6 ||| (n.setWidth 64 <<< 16) ||| (a.setWidth 64 <<< 24)
  | .rotr n a => 0x7 ||| (n.setWidth 64 <<< 16) ||| (a.setWidth 64 <<< 24)

/-- The reserved bits of the command word (30_encoding.md R70). -/
def rsvMask : Word := 0xFFFFFFFFC080F8F0

/-- The row the decoder reads from a word given as a number, bit 0 the least significant; bits at or above `nbits` are 0.
A row whose field values the spec calls an error (WIDTH 0, TSEL 6) is still that row's command: running it takes that
error (60_exceptions.md R162, "raised by" column; log 5). -/
def decodeTableWord (nbits w : Nat) : Option Instr := decodeRow (BitVec.ofNat 64 (w % 2 ^ nbits))

end Sys2Proof
end

