-- ==== Sys2Proof/Machine/State.lean ====
section
/-! DEFINITION. The state of the core and of its host agent, the state after reset, and the reasons a step can stop. -/

namespace Sys2Proof.Machine

/-- The STATUS flags and the error code (10_state.md R21, R29). -/
structure Status where
  busy : Bool
  done : Bool
  err : Bool
  ovr : Bool
  errcode : BitVec 4
  deriving DecidableEq, Repr

/-- LAT_CMD, the hidden latch of the accepted command (10_state.md R21, R32). -/
structure LatCmd where
  op : BitVec 4
  tsel : BitVec 3
  width : BitVec 7
  amt : BitVec 6
  deriving DecidableEq, Repr

/-- What an index of the port names (20_memory.md R53). -/
inductive Reg where
  | cmd
  | status
  | din
  | key
  | aux
  | dout
  | reserved
  | rk (i : Fin 16)
  deriving DecidableEq, Repr

/-- A `<value>` of a host line: "a 64-bit hex literal or a host variable" (30_encoding.md R78). -/
inductive HostVal where
  | lit (v : Word)
  | var (x : Nat)
  deriving DecidableEq, Repr

/-- One line of the host's program: a transaction of 30_encoding.md R78 at an index, the polling loop of R79, the Reset
step of 70_reset_and_hazards.md R180, or an access through a byte-addressed bus adapter (20_memory.md R52, R55, R56). -/
inductive HostLine where
  /-- `WR <reg>, <value>`. -/
  | wr (idx : BitVec 5) (v : HostVal)
  /-- `RD <reg> -> <var>`, the variable optional. -/
  | rd (idx : BitVec 5) (x : Option Nat)
  /-- `WAIT`: `RD STATUS -> x`, repeated while `x[0] = 1`. -/
  | wait (x : Nat)
  /-- `Reset`. -/
  | reset
  /-- The bytes written at a bus address, the lowest address first. -/
  | busWr (addr : Nat) (bytes : List Byte)
  /-- `nbytes` bytes read at a bus address into a variable. -/
  | busRd (addr : Nat) (nbytes : Nat) (x : Option Nat)
  deriving DecidableEq, Repr

/-- Why the machine stops with a fault. -/
inductive Fault where
  /-- Raised by every command's Complete half, and by the engine, when BUSY = 1 and the latch does not hold that command with
  fields and operands that an acceptance lets through, so that 60_exceptions.md R165 gives no effect. Safe: the machine
  stops, and no run from reset reaches it (log 4). -/
  | latchUnchecked
  deriving DecidableEq, Repr

/-- Why a step has no meaning. -/
inductive Refusal where
  /-- Raised by `exec` for a command that has no meaning yet. Safe. -/
  | notModelled (mnemonic : String)
  /-- Raised by a bus access that is misaligned or not 8 bytes wide: "the model gives such an access no meaning and refuses
  it" (20_memory.md R56, 93 U8). Safe. -/
  | partialAccess
  /-- Raised by a bus access outside the 256 bytes of the core's 32 indices (20_memory.md R52, R53): it addresses something
  else on the platform. Safe (log 6). -/
  | outsideWindow
  deriving DecidableEq, Repr

/-- The core (10_state.md R21), and below the line the model's own fields: the host agent (R20) and the indices of the
free values. Plain data. -/
structure State where
  din : Word
  key : Word
  aux : Word
  dout : Word
  rk : Vector Word 16
  status : Status
  latCmd : LatCmd
  latDin : Word
  latKey : Word
  latAux : Word
  -- the model's own fields
  /-- The host's lines not yet issued, the next one first (log 1). -/
  program : List HostLine
  /-- The host's variables, in rising order of their numbers (log 7). -/
  vars : List (Nat × Word)
  /-- Host steps since the last acceptance (log 2). -/
  waited : Nat
  /-- Commands accepted so far; `Config.latency` is applied to it (log 2). -/
  accepted : Nat
  /-- Draws made so far; `Config.draw64` is applied to it (log 3). -/
  drawn : Nat
  deriving DecidableEq, Repr

/-- The machine right after reset (10_state.md R37): every register, flag and latch 0; "The power-on state is the reset
state" (70_reset_and_hazards.md R181). The host has nothing to issue yet (log 1). -/
def State.reset : State where
  din := 0
  key := 0
  aux := 0
  dout := 0
  rk := Vector.replicate 16 0
  status := ⟨false, false, false, false, 0⟩
  latCmd := ⟨0, 0, 0, 0⟩
  latDin := 0
  latKey := 0
  latAux := 0
  program := []
  vars := []
  waited := 0
  accepted := 0
  drawn := 0

end Sys2Proof.Machine
end

