-- ==== Sys2Proof/Machine/HostProgram.lean ====
section
/-! DEFINITION. The lines and pseudo-instructions of host programs as lines of the host agent (30_encoding.md R78, R79). -/

namespace Sys2Proof.Machine

/-- The index of a register name (30_encoding.md R78, 20_memory.md R53); RESERVED stands for its first index, 6. -/
def regIndex : Reg → BitVec 5
  | .cmd => 0
  | .status => 1
  | .din => 2
  | .key => 3
  | .aux => 4
  | .dout => 5
  | .reserved => 6
  | .rk i => BitVec.ofNat 5 (16 + i.val)

/-- `WR <reg>, <value>`. -/
def lineWr (r : Reg) (v : HostVal) : HostLine := .wr (regIndex r) v

/-- `RD <reg> -> <var>`. -/
def lineRd (r : Reg) (x : Option Nat) : HostLine := .rd (regIndex r) x

/-- `CMD <command>` is `HostWrite(0, Encode(command))`. -/
def lineCmd (c : Instr) : HostLine := .wr 0 (.lit (encode c))

/-- `CMD.RAW <value>` is `WR CMD, <value>`. -/
def lineCmdRaw (v : HostVal) : HostLine := .wr 0 v

/-- `RUN <command>` is `CMD <command>` then `WAIT`. -/
def linesRun (c : Instr) (x : Nat) : List HostLine := [lineCmd c, .wait x]

/-- `SWAP` is `CMD ROTL 64, 32`. -/
def lineSwap : HostLine := lineCmd (.rotl 64 32)

/-- `MOVE <dst>, <src>` is `RD <src> -> t` then `WR <dst>, t`. -/
def linesMove (dst src : Reg) (t : Nat) : List HostLine := [lineRd src (some t), lineWr dst (.var t)]

end Sys2Proof.Machine
end

