-- ==== Sys2Proof/Config.lean ====
section
/-! DEFINITION. What the spec leaves open: constants with no body, so that no proof can see their value. -/

namespace Sys2Proof.Config

/-- A read of a result register while its command is in flight: "a draw under no law, possibly different on each read"
(70_reset_and_hazards.md R186, 20_memory.md R51). The argument is the number of draws made before. Log 3. -/
opaque draw64 : Nat → Word

/-- How many host steps the engine lets pass before it takes Complete of the command that was accepted as number `n`
(counted from 1): the OPEN parameter LAT (70_reset_and_hazards.md R190) as the model needs it. A natural number, so
finite: that is the weak fairness of R187; no bound is known. Log 2. -/
opaque latency : Nat → Nat

/-- The byte address of index 0 on a platform bus: the OPEN parameter CORE_BASE (20_memory.md R52). Log 6. -/
opaque coreBase : Nat

/-- What a host variable holds before any RD has assigned it; 30_encoding.md R78 does not say. Log 7. -/
opaque unboundVar : Nat → Word

end Sys2Proof.Config
end

