-- ==== Sys2Proof/Machine/Flags.lean ====
section
/-! DEFINITION. The STATUS word and every change of the STATUS flags (10_state.md R29, R31; 60_exceptions.md R160 to R165). -/

namespace Sys2Proof.Machine

/-- The code of an error in STATUS.ERRCODE (60_exceptions.md R162). -/
def errCode : ErrKind → BitVec 4
  | .illegalCmd => 1
  | .badTsel => 2
  | .invalidWidth => 3
  | .invalidShift => 4
  | .widthError => 5
  | .invalidTable => 6

/-- `zext_64(ERRCODE || 0000 || OVR || ERR || DONE || BUSY)` (10_state.md R29). -/
def statusWord (f : Status) : Word :=
  (f.errcode ++ 0#4 ++ BitVec.ofBool f.ovr ++ BitVec.ofBool f.err ++ BitVec.ofBool f.done ++
    BitVec.ofBool f.busy).setWidth 64

/-- The flags a request finds cleared: DONE, ERR, OVR, ERRCODE (60_exceptions.md R160). -/
def flagsCleared (f : Status) : Status := { f with done := false, err := false, ovr := false, errcode := 0 }

/-- The error ending (60_exceptions.md R161): DONE 1, ERR 1, the code; BUSY and OVR stay. -/
def flagsError (e : ErrKind) (f : Status) : Status := { f with done := true, err := true, errcode := errCode e }

/-- BUSY 1 at an acceptance without error (60_exceptions.md R160). -/
def flagsBusy (f : Status) : Status := { f with busy := true }

/-- BUSY 0, DONE 1 at Complete; ERR, ERRCODE and OVR stay (60_exceptions.md R165). -/
def flagsComplete (f : Status) : Status := { f with busy := false, done := true }

/-- OVR 1 for a request while busy (60_exceptions.md R164). -/
def flagsOverrun (f : Status) : Status := { f with ovr := true }

end Sys2Proof.Machine
end

