-- ==== Sys2Proof/Machine/Operands.lean ====
section
/-! DEFINITION. The operands of a command: the latch fields of a command, the widths of the permutation tables and the operand
check (10_state.md R32; 30_encoding.md R72; 60_exceptions.md R163). -/

namespace Sys2Proof.Machine

/-- The latch fields of a command: `(r.OP, r.TSEL, r.WIDTH, r.AMT)`; a field the command does not use is 0 in its word
(60_exceptions.md R160, 30_encoding.md R74). -/
def latFields : Instr → LatCmd
  | .encrypt => ⟨1, 0, 0, 0⟩
  | .keysched => ⟨2, 0, 0, 0⟩
  | .round => ⟨3, 0, 0, 0⟩
  | .sbox => ⟨4, 0, 0, 0⟩
  | .permute t => ⟨5, t, 0, 0⟩
  | .rotl n a => ⟨6, 0, n, a⟩
  | .rotr n a => ⟨7, 0, n, a⟩

/-- The command LAT_CMD holds (60_exceptions.md R165, `case LAT_CMD.OP of`); none for an OP no acceptance latches. -/
def latInstr (c : LatCmd) : Option Instr :=
  if c.op = 1 then some .encrypt
  else if c.op = 2 then some .keysched
  else if c.op = 3 then some .round
  else if c.op = 4 then some .sbox
  else if c.op = 5 then some (.permute c.tsel)
  else if c.op = 6 then some (.rotl c.width c.amt)
  else if c.op = 7 then some (.rotr c.width c.amt)
  else none

/-- The input width of the table TSEL selects (30_encoding.md R72); 64, so no check, for the selectors that have none. -/
def permWidthIn (tsel : BitVec 3) : Nat :=
  if tsel = 0 then 64
  else if tsel = 1 then 56
  else if tsel = 2 then 32
  else if tsel = 3 then 32
  else 64

/-- An operand has a bit set at or above its declared width `n`: `v >= 2^n` (60_exceptions.md R163). -/
def overWide (n : Nat) (v : Word) : Bool := decide (v.toNat ≥ 2 ^ n)

/-- WIDTH_ERROR where the operand is over-wide (60_exceptions.md R163). -/
def widthCheck (n : Nat) (v : Word) : Option ErrKind := if overWide n v then some .widthError else none

/-- `OperandCheck(r, DIN, KEY, AUX)` of 60_exceptions.md R163; KEY is never checked. -/
def operandCheck (i : Instr) (din aux : Word) : Option ErrKind :=
  match i with
  | .encrypt => none
  | .keysched => none
  | .round => widthCheck 48 aux
  | .sbox => widthCheck 48 din
  | .permute t => widthCheck (permWidthIn t) din
  | .rotl n _ => if n.toNat < 64 then widthCheck n.toNat din else none
  | .rotr n _ => if n.toNat < 64 then widthCheck n.toNat din else none

/-- The first error of a selected row: its fields (30_encoding.md R75), then its operands (R163), the order of R166. -/
def commandCheck (i : Instr) (din aux : Word) : Option ErrKind :=
  match fieldCheck i with
  | some e => some e
  | none => operandCheck i din aux

end Sys2Proof.Machine
end

