-- ==== Sys2Proof/Machine/Ops.lean ====
section
/-! DEFINITION. The named operations on the state that the commands share: the request's acceptance, the error ending (this
core's one way of taking an exception), the latch, the two completions, and the two halves of every command. -/

namespace Sys2Proof.Machine

/-- `raise Error(e)`: the ONE error ending (60_exceptions.md R161). Only STATUS changes; "an error saves no state, changes no
mode or mask, and transfers control nowhere" (R168). -/
def raiseError (e : ErrKind) (s : State) : State := { s with status := flagsError e s.status }

/-- The flags an accepted request clears; this is also the only return from an error but Reset (60_exceptions.md R160, R169). -/
def clearFlags (s : State) : State := { s with status := flagsCleared s.status }

/-- The latch is loaded with the command and the current DIN, KEY and AUX, and BUSY is set (60_exceptions.md R160). The
model's own counters note the acceptance (log 2). -/
def latchCommand (i : Instr) (s : State) : State :=
  { s with
    latCmd := latFields i
    latDin := s.din
    latKey := s.key
    latAux := s.aux
    status := flagsBusy s.status
    waited := 0
    accepted := s.accepted + 1 }

/-- The acceptance of a request whose word selects `i` (60_exceptions.md R160): clear the flags, check the fields and the
operands, then latch, or end in the first error. -/
def accept (i : Instr) (s : State) : State :=
  match commandCheck i s.din s.aux with
  | some e => raiseError e (clearFlags s)
  | none => latchCommand i (clearFlags s)

/-- A request while BUSY = 1 is dropped and sets OVR (60_exceptions.md R164). -/
def overrun (s : State) : State := { s with status := flagsOverrun s.status }

/-- Complete of a command that writes DOUT (60_exceptions.md R165). -/
def completeDout (v : Word) (s : State) : State := { s with dout := v, status := flagsComplete s.status }

/-- Complete of KEYSCHED: all sixteen RK registers together (60_exceptions.md R165, 41_key_schedule.md R133). -/
def completeRk (ks : Vector Word 16) (s : State) : State := { s with rk := ks, status := flagsComplete s.status }

/-- The two halves every command has (40_primitives.md R121 to R124, and the like): "on acceptance" while BUSY = 0, and "on
Complete" while BUSY = 1, where `finish` is the command's effect (log 4). Complete performs the latched command on what an
acceptance latched; for anything else in the latch 60_exceptions.md R165 gives no effect and the machine stops. -/
def runCommand (i : Instr) (finish : State → State) (s : State) : Host.Outcome State Fault Refusal :=
  if s.status.busy then
    if latInstr s.latCmd = some i ∧ commandCheck i s.latDin s.latAux = none then .next (finish s)
    else .fault .latchUnchecked
  else .next (accept i s)

/-- `Reset`: every register, flag and latch to its reset value, in every state; the host agent and the indices of the free
values stay (70_reset_and_hazards.md R180, 10_state.md R37). -/
def resetCore (s : State) : State :=
  { State.reset with
    program := s.program
    vars := s.vars
    waited := s.waited
    accepted := s.accepted
    drawn := s.drawn }

end Sys2Proof.Machine
end

