-- ==== Sys2Proof/Machine/Primitives.lean ====
section
/-! DEFINITION. BitPermuter, CircularShifter and SBoxBank (40_primitives.md R117 to R120), and the commands PERMUTE, ROTL, ROTR and
SBOX over them (R121 to R124). -/

namespace Sys2Proof.Machine

/-- DES bit `k` of an N-bit value, counted from 1 at the most significant bit: `v[N-k]` (00_scope.md R10). -/
def desbit {n : Nat} (v : BitVec n) (k : Nat) : Bool := v.getLsbD (n - k)

/-- `Permute(v, n_in, T)`: DES bit k of the `m`-bit output is DES bit `t_k` of `v` (40_primitives.md R117). -/
def permute {n : Nat} (m : Nat) (table : List Nat) (v : BitVec n) : BitVec m :=
  (BitVec.ofBoolListBE (table.map (desbit v))).setWidth m

/-- `mask_n` at width `m` (00_scope.md R11). -/
def lowMask (m n : Nat) : BitVec m := BitVec.ofNat m (2 ^ n - 1)

/-- `RotL(v, n, s) = ((v << s) OR (v >> (n - s))) AND mask_n` (40_primitives.md R118). -/
def rotL {m : Nat} (v : BitVec m) (n s : Nat) : BitVec m := ((v <<< s) ||| (v >>> (n - s))) &&& lowMask m n

/-- `RotR(v, n, s) = ((v >> s) OR (v << (n - s))) AND mask_n` (40_primitives.md R119). -/
def rotR {m : Nat} (v : BitVec m) (n s : Nat) : BitVec m := ((v >>> s) ||| (v <<< (n - s))) &&& lowMask m n

/-- `S[row][col]` of one S-box for the 6-bit group `g`: row from the outer two bits, column from the inner four, group bit 1
and group bit 2 the high ones (40_primitives.md R120). -/
def sboxLookup (box : List (List (BitVec 4))) (g : BitVec 6) : BitVec 4 :=
  let row := 2 * (g.getLsbD 5).toNat + (g.getLsbD 0).toNat
  let col := (g.extractLsb' 1 4).toNat
  (box.getD row []).getD col 0

/-- Group i of the 48-bit input: `x[47-6i : 42-6i]` (40_primitives.md R120). -/
def sboxGroup (x : BitVec 48) (i : Fin 8) : BitVec 6 := x.extractLsb' (42 - 6 * i.val) 6

/-- The 4-bit output of group i (40_primitives.md R120). -/
def sboxOut (x : BitVec 48) (i : Fin 8) : BitVec 4 := sboxLookup (sboxOf i) (sboxGroup x i)

/-- `SBoxBank(x)`: "concatenate the eight 4-bit outputs in group order" (40_primitives.md R120). -/
def sboxBank (x : BitVec 48) : BitVec 32 :=
  sboxOut x 0 ++ sboxOut x 1 ++ sboxOut x 2 ++ sboxOut x 3 ++ sboxOut x 4 ++ sboxOut x 5 ++ sboxOut x 6 ++ sboxOut x 7

/-- `zext_64(Permute(DIN, n_in, T))` for the table TSEL selects (30_encoding.md R72, 40_primitives.md R121). TSEL 6 and 7
select no table; a request with them ends in BAD_TSEL before this is reached, and `runCommand` stops before it too. -/
def permuteSel (tsel : BitVec 3) (v : Word) : Word :=
  if tsel = 0 then (permute 56 tablePc1 v).setWidth 64
  else if tsel = 1 then (permute 48 tablePc2 (v.setWidth 56)).setWidth 64
  else if tsel = 2 then (permute 48 tableE (v.setWidth 32)).setWidth 64
  else if tsel = 3 then (permute 32 tableP (v.setWidth 32)).setWidth 64
  else if tsel = 4 then permute 64 tableIp v
  else permute 64 tableFp v

/-- `PERMUTE t` (40_primitives.md R121). -/
def execPermute (tsel : BitVec 3) (s : State) : Host.Outcome State Fault Refusal :=
  runCommand (.permute tsel) (completeDout (permuteSel tsel s.latDin)) s

/-- `ROTL n, s` (40_primitives.md R122). -/
def execRotl (width : BitVec 7) (amt : BitVec 6) (s : State) : Host.Outcome State Fault Refusal :=
  runCommand (.rotl width amt) (completeDout (rotL s.latDin width.toNat amt.toNat)) s

/-- `ROTR n, s` (40_primitives.md R123). -/
def execRotr (width : BitVec 7) (amt : BitVec 6) (s : State) : Host.Outcome State Fault Refusal :=
  runCommand (.rotr width amt) (completeDout (rotR s.latDin width.toNat amt.toNat)) s

/-- `SBOX` (40_primitives.md R124). -/
def execSbox (s : State) : Host.Outcome State Fault Refusal :=
  runCommand .sbox (completeDout ((sboxBank (s.latDin.setWidth 48)).setWidth 64)) s

end Sys2Proof.Machine
end

