-- ==== Sys2Proof/Machine/Feistel.lean ====
section
/-! DEFINITION. The Feistel round and ROUND (42_feistel_round.md R140 to R142). -/

namespace Sys2Proof.Machine

/-- `f(R, K) = Permute(SBoxBank(Permute(R, 32, E) XOR K), 32, P)` (42_feistel_round.md R140). -/
def feistelF (r : BitVec 32) (k : BitVec 48) : BitVec 32 := permute 32 tableP (sboxBank (permute 48 tableE r ^^^ k))

/-- Left, DES bits 1..32 of a block: `x[63:32]` (42_feistel_round.md R141). -/
def leftHalf (x : Word) : BitVec 32 := x.extractLsb' 32 32

/-- Right, DES bits 33..64 of a block: `x[31:0]` (42_feistel_round.md R141). -/
def rightHalf (x : Word) : BitVec 32 := x.extractLsb' 0 32

/-- `FeistelRound(x, K) = R || (L XOR f(R, K))` (42_feistel_round.md R141). -/
def feistelRound (x : Word) (k : BitVec 48) : Word := rightHalf x ++ (leftHalf x ^^^ feistelF (rightHalf x) k)

/-- `ROUND` (42_feistel_round.md R142): the round key is `LAT_AUX[47:0]`. -/
def execRound (s : State) : Host.Outcome State Fault Refusal :=
  runCommand .round (completeDout (feistelRound s.latDin (s.latAux.extractLsb' 0 48))) s

end Sys2Proof.Machine
end

