-- ==== Sys2Proof/Machine/KeySchedule.lean ====
section
/-! DEFINITION. The key schedule and KEYSCHED (41_key_schedule.md R130 to R133). -/

namespace Sys2Proof.Machine

/-- The rounds of 41_key_schedule.md R130 step 3 from the halves `c` and `d`: rotate both, then PC-2 of `C || D`. "Halves carry
forward rotated (cumulative rotation)" (R131). -/
def roundKeysFrom : List Nat → BitVec 28 → BitVec 28 → List (BitVec 48)
  | [], _, _ => []
  | s :: rest, c, d =>
    let c' := rotL c 28 s
    let d' := rotL d 28 s
    permute 48 tablePc2 (c' ++ d') :: roundKeysFrom rest c' d'

/-- The left half C of PC-1 of a key, DES bits 1..28 (41_key_schedule.md R130 step 2). -/
def keyHalfC (k : Word) : BitVec 28 := (permute 56 tablePc1 k).extractLsb' 28 28

/-- The right half D of PC-1 of a key, DES bits 29..56 (41_key_schedule.md R130 step 2). -/
def keyHalfD (k : Word) : BitVec 28 := (permute 56 tablePc1 k).extractLsb' 0 28

/-- `KeySchedule(k)`: the sixteen round keys K[0..15] in order (41_key_schedule.md R130). -/
def keySchedule (k : Word) : List (BitVec 48) := roundKeysFrom shiftSchedule (keyHalfC k) (keyHalfD k)

/-- One key per entry of the schedule. -/
theorem roundKeysFrom_length (l : List Nat) (c d : BitVec 28) : (roundKeysFrom l c d).length = l.length := by
  induction l generalizing c d with
  | nil => rfl
  | cons s rest ih => simp [roundKeysFrom, ih]

/-- "exactly 16 values" (41_key_schedule.md R134). -/
theorem keySchedule_length (k : Word) : (keySchedule k).length = 16 := roundKeysFrom_length _ _ _

/-- The sixteen RK registers after KEYSCHED: `RK[i] <- zext_64(K[i])` (41_key_schedule.md R133). -/
def rkOfKey (k : Word) : Vector Word 16 :=
  ⟨((keySchedule k).map (BitVec.setWidth 64)).toArray, by simp [keySchedule_length]⟩

/-- `KEYSCHED` (41_key_schedule.md R133). -/
def execKeysched (s : State) : Host.Outcome State Fault Refusal :=
  runCommand .keysched (completeRk (rkOfKey s.latKey)) s

end Sys2Proof.Machine
end

