-- ==== Sys2Proof/Machine/BlockCipher.lean ====
section
/-! DEFINITION. Block encryption in the source's variant and ENCRYPT (43_block_cipher.md R150 to R152). -/

namespace Sys2Proof.Machine

/-- The un-swap `b[31:0] || b[63:32]` (43_block_cipher.md R150). -/
def swapHalves (b : Word) : Word := rightHalf b ++ leftHalf b

/-- The sixteen rounds with K[0..15] in order (43_block_cipher.md R150, R151). -/
def sixteenRounds (x k : Word) : Word := (keySchedule k).foldl feistelRound x

/-- `Encrypt(x, k)`: no initial permutation, sixteen rounds, un-swap, FP (43_block_cipher.md R150). -/
def encrypt (x k : Word) : Word := permute 64 tableFp (swapHalves (sixteenRounds x k))

/-- `ENCRYPT` (43_block_cipher.md R152); RK is not written (10_state.md R27). -/
def execEncrypt (s : State) : Host.Outcome State Fault Refusal :=
  runCommand .encrypt (completeDout (encrypt s.latDin s.latKey)) s

end Sys2Proof.Machine
end

