-- ==== Sys2Proof/Machine/Dispatch.lean ====
section
/-! DEFINITION. One arm per command (30_encoding.md R71). -/

namespace Sys2Proof.Machine

def exec (i : Instr) (s : State) : Host.Outcome State Fault Refusal :=
  match i with
  | .encrypt => Sys2Proof.Machine.execEncrypt s
  | .keysched => Sys2Proof.Machine.execKeysched s
  | .round => Sys2Proof.Machine.execRound s
  | .sbox => Sys2Proof.Machine.execSbox s
  | .permute tsel => Sys2Proof.Machine.execPermute tsel s
  | .rotl width amt => Sys2Proof.Machine.execRotl width amt s
  | .rotr width amt => Sys2Proof.Machine.execRotr width amt s

end Sys2Proof.Machine
end

