-- ==== Sys2Proof/Machine/Port.lean ====
section
/-! DEFINITION. The register port, the engine's step and the host agent (20_memory.md R50 to R60; 60_exceptions.md R160, R164, R165;
30_encoding.md R78, R79). Step.lean only calls these. -/

namespace Sys2Proof.Machine

/-- The register an index names (20_memory.md R53). -/
def regOf (idx : BitVec 5) : Reg :=
  if idx.toNat = 0 then .cmd
  else if idx.toNat = 1 then .status
  else if idx.toNat = 2 then .din
  else if idx.toNat = 3 then .key
  else if idx.toNat = 4 then .aux
  else if idx.toNat = 5 then .dout
  else if idx.toNat < 16 then .reserved
  else .rk ⟨idx.toNat - 16, by have := idx.isLt; omega⟩

/-- `CommandRequest(w)`: dropped while busy, else accepted (60_exceptions.md R160, R164). A word that selects no row ends in
ILLEGAL_CMD; a word that selects one runs that command, whose acceptance makes the other checks in the order of R166. -/
def commandRequest (w : Word) (s : State) : Host.Outcome State Fault Refusal :=
  if s.status.busy then .next (overrun s)
  else
    match decodeRow w with
    | none => .next (raiseError .illegalCmd (clearFlags s))
    | some i => exec i s

/-- `HostWrite(idx, v)` (20_memory.md R50). -/
def hostWrite (idx : BitVec 5) (v : Word) (s : State) : Host.Outcome State Fault Refusal :=
  match regOf idx with
  | .cmd => commandRequest v s
  | .din => .next { s with din := v }
  | .key => .next { s with key := v }
  | .aux => .next { s with aux := v }
  | .status => .next s
  | .dout => .next s
  | .reserved => .next s
  | .rk _ => .next s

/-- The command in flight writes this register, so that a read of it is a draw: DOUT for every command but KEYSCHED, RK for
KEYSCHED (20_memory.md R51, 70_reset_and_hazards.md R186). -/
def inFlightTarget (r : Reg) (s : State) : Bool :=
  match r with
  | .dout => s.status.busy && s.latCmd.op != 2
  | .rk _ => s.status.busy && s.latCmd.op == 2
  | _ => false

/-- The exact value of a register at the port (20_memory.md R51): CMD and the reserved indices read 0. -/
def regValue (r : Reg) (s : State) : Word :=
  match r with
  | .cmd => 0
  | .status => statusWord s.status
  | .din => s.din
  | .key => s.key
  | .aux => s.aux
  | .dout => s.dout
  | .reserved => 0
  | .rk i => s.rk.get i

/-- `HostRead(idx)`: the value returned, and the state, which only notes that a draw was made (20_memory.md R51; log 3). -/
def hostRead (idx : BitVec 5) (s : State) : Word × State :=
  if inFlightTarget (regOf idx) s then (Config.draw64 s.drawn, { s with drawn := s.drawn + 1 })
  else (regValue (regOf idx) s, s)

/-- The engine's `Complete` step: the command LAT_CMD holds (60_exceptions.md R165). -/
def engineComplete (s : State) : Host.Outcome State Fault Refusal :=
  match latInstr s.latCmd with
  | some i => exec i s
  | none => .fault .latchUnchecked

/-- The engine moves now: BUSY = 1, and either the host has nothing to issue or the free number of host steps has passed
(10_state.md R20, 60_exceptions.md R166, 70_reset_and_hazards.md R187; log 2). -/
def engineTurn (s : State) : Bool :=
  s.status.busy && (s.program.isEmpty || decide (Config.latency s.accepted ≤ s.waited))

/-- The value of a host variable; a free value before any RD has assigned it (30_encoding.md R78; log 7). -/
def varValue (vars : List (Nat × Word)) (x : Nat) : Word :=
  match vars.lookup x with
  | some v => v
  | none => Config.unboundVar x

/-- `x := v`, keeping the variables in rising order with no repeats. -/
def setVar (x : Nat) (v : Word) : List (Nat × Word) → List (Nat × Word)
  | [] => [(x, v)]
  | (y, u) :: rest =>
    if x < y then (x, v) :: (y, u) :: rest
    else if x = y then (x, v) :: rest
    else (y, u) :: setVar x v rest

/-- The variables are in rising order with no repeats. -/
def varsWf : List (Nat × Word) → Bool
  | [] => true
  | [_] => true
  | a :: b :: rest => decide (a.1 < b.1) && varsWf (b :: rest)

/-- `var := v` where a line names a variable: "the "-> var" part may be omitted" (30_encoding.md R78). -/
def assign (x : Option Nat) (v : Word) (s : State) : State :=
  match x with
  | some n => { s with vars := setVar n v s.vars }
  | none => s

/-- A `<value>` as a word (30_encoding.md R78). -/
def hostVal (v : HostVal) (s : State) : Word :=
  match v with
  | .lit w => w
  | .var x => varValue s.vars x

/-- The word of eight bytes, big-endian: byte 0, at the lowest address, holds bits 63:56 (20_memory.md R55). -/
def wordOfBytes (bytes : List Byte) : Word :=
  bytes.foldl (fun acc b => (acc <<< 8) ||| b.setWidth 64) 0

/-- The eight bytes of a word, big-endian (20_memory.md R55). -/
def bytesOfWord (v : Word) : List Byte :=
  [v.extractLsb' 56 8, v.extractLsb' 48 8, v.extractLsb' 40 8, v.extractLsb' 32 8,
   v.extractLsb' 24 8, v.extractLsb' 16 8, v.extractLsb' 8 8, v.extractLsb' 0 8]

/-- The index a bus access reaches: index i sits at CORE_BASE + 8i, and only whole 64-bit aligned accesses are transactions
(20_memory.md R52, R56; log 6). -/
def busIndex (addr nbytes : Nat) : Except Refusal (BitVec 5) :=
  if addr < Config.coreBase ∨ Config.coreBase + 256 ≤ addr then .error .outsideWindow
  else if (addr - Config.coreBase) % 8 ≠ 0 ∨ nbytes ≠ 8 then .error .partialAccess
  else .ok (BitVec.ofNat 5 ((addr - Config.coreBase) / 8))

/-- One round of WAIT: `RD STATUS -> x`, and the line again while `x[0] = 1` (30_encoding.md R79). -/
def pollStatus (x : Nat) (s : State) : State :=
  let v := (hostRead 1 s).1
  let t := assign (some x) v (hostRead 1 s).2
  { t with program := if v.getLsbD 0 then .wait x :: t.program else t.program }

/-- One line of the host's program, already taken from it (30_encoding.md R78, R79; 70_reset_and_hazards.md R180). -/
def hostLine (l : HostLine) (s : State) : Host.Outcome State Fault Refusal :=
  match l with
  | .wr idx v => hostWrite idx (hostVal v s) s
  | .rd idx x => .next (assign x (hostRead idx s).1 (hostRead idx s).2)
  | .wait x => .next (pollStatus x s)
  | .reset => .next (resetCore s)
  | .busWr addr bytes =>
    match busIndex addr bytes.length with
    | .ok idx => hostWrite idx (wordOfBytes bytes) s
    | .error r => .refused r
  | .busRd addr n x =>
    match busIndex addr n with
    | .ok idx => .next (assign x (wordOfBytes (bytesOfWord (hostRead idx s).1)) (hostRead idx s).2)
    | .error r => .refused r

/-- The state in which a host line is performed: the line is taken and the host step counted (log 2). -/
def takeLine (rest : List HostLine) (s : State) : State := { s with program := rest, waited := s.waited + 1 }

/-- The host's step: its next line, or nothing where it has none (log 8). -/
def hostStep (s : State) : Host.Outcome State Fault Refusal :=
  match s.program with
  | [] => .next s
  | l :: rest => hostLine l (takeLine rest s)

/-- One atomic step of the interleaving (20_memory.md R59): Complete on the engine's turn, else the host's step. -/
def oneStep (s : State) : Host.Outcome State Fault Refusal :=
  if engineTurn s then engineComplete s else hostStep s

/-- `s` with a request for the word `w` as the host's next line; BUSY is 0, because a request while BUSY = 1 is not decoded
(60_exceptions.md R164; log 9). -/
def withRequest (w : Word) (s : State) : State :=
  { s with program := .wr 0 (.lit w) :: s.program, status := { s.status with busy := false } }

end Sys2Proof.Machine
end

