-- ==== Sys2Proof/Machine/Step.lean ====
section
/-! DEFINITION. One step of the machine, and the placing of one command word as the host's next line. -/

namespace Sys2Proof.Machine

/-- One atomic step of the interleaving of the host and the engine (20_memory.md R59). -/
def step (s : State) : Host.Outcome State Fault Refusal := oneStep s

/-- `s` with the command word of the low `nbits` bits of `w` as the host's next line, a write of CMD, so that the very next
step takes that request; BUSY is 0, since a request while BUSY = 1 is not decoded (60_exceptions.md R164; log 9). -/
def State.withFetchWord (s : State) (nbits w : Nat) : State := withRequest (BitVec.ofNat 64 (w % 2 ^ nbits)) s

end Sys2Proof.Machine
end

