-- ==== Sys2Proof/Safety.lean ====
section
/-! DEFINITION. What counts as a safe state and a run: the legal STATUS combinations, the legal latch, the round-key registers' zero
upper bits, and runs of several steps. -/

namespace Sys2Proof.Machine

/-- The legal flag combinations of 10_state.md R30. -/
structure StatusLegal (f : Status) : Prop where
  /-- "if `BUSY = 1` then `DONE = 0`, `ERR = 0` and `ERRCODE = 0`". -/
  busy : f.busy = true → f.done = false ∧ f.err = false ∧ f.errcode = 0
  /-- "`ERR = 1` implies `DONE = 1` and `ERRCODE` is one of the codes 1..5". -/
  err : f.err = true → f.done = true ∧ 1 ≤ f.errcode.toNat ∧ f.errcode.toNat ≤ 5
  /-- "`ERR = 0` implies `ERRCODE = 0`". -/
  noErr : f.err = false → f.errcode = 0
  /-- "`OVR = 1` implies `ERR = 0` and (`BUSY = 1` or `DONE = 1`)". -/
  ovr : f.ovr = true → f.err = false ∧ (f.busy = true ∨ f.done = true)

/-- While busy, the latch holds a command as an acceptance latches it, and operands that passed its check
(60_exceptions.md R160, R165: "every check was made at acceptance"). -/
def LatchLegal (s : State) : Prop :=
  s.status.busy = true → ∃ i : Instr, s.latCmd = latFields i ∧ commandCheck i s.latDin s.latAux = none

/-- "`RK[i][63:48]` is always zero" (10_state.md R27). -/
def RkLegal (s : State) : Prop := ∀ i : Fin 16, (s.rk.get i).toNat < 2 ^ 48

/-- The invariant of the machine: it holds at reset and every step keeps it. The last part is about the model's own host
variables. -/
structure MachineInv (s : State) : Prop where
  status : StatusLegal s.status
  latch : LatchLegal s
  rk : RkLegal s
  vars : varsWf s.vars = true

/-- `k` steps, stopping at the first fault or refusal. -/
def stepN : Nat → State → Host.Outcome State Fault Refusal
  | 0, s => .next s
  | k + 1, s =>
    match step s with
    | .next t => stepN k t
    | .fault r => .fault r
    | .refused r => .refused r

end Sys2Proof.Machine
end

