-- ==== Sys2Proof/Certificates/Slice0/Obligations.lean ====
section
/-! DEFINITION. The statements for the provers, each from a rule or a section of spec/ (OBLIGATIONS.json names which). The core has no
memory, so a frame speaks of registers, flags, the latch and the model's own fields only. -/

namespace Sys2Proof.Claims

open Sys2Proof Sys2Proof.Machine

/-- `t` is the state after an acceptance without error, in `s`, of the command with latch fields `c` (60_exceptions.md R160): the latch
loaded, BUSY 1, the other flags 0, and nothing else changed. The model's own two counters (log 2) are left out of it. -/
def latched (c : LatCmd) (s t : State) : Prop :=
  t = { s with
    latCmd := c
    latDin := s.din
    latKey := s.key
    latAux := s.aux
    status := { busy := true, done := false, err := false, ovr := false, errcode := 0 }
    waited := t.waited
    accepted := t.accepted }

/-- The state after an accepted request that ended in the error with this code (60_exceptions.md R160, R161). -/
def errorState (code : BitVec 4) (s : State) : State :=
  { s with status := { busy := false, done := true, err := true, ovr := false, errcode := code } }

/-- The state after Complete of a command that writes `v` to DOUT (60_exceptions.md R165). -/
def doneState (v : Word) (s : State) : State :=
  { s with
    dout := v
    status := { busy := false, done := true, err := s.status.err, ovr := s.status.ovr, errcode := s.status.errcode } }

/-- `t` has every register, flag and latch of `s` (10_state.md R21): nothing of the core changed. -/
def sameCore (s t : State) : Prop :=
  t = { s with
    program := t.program
    vars := t.vars
    waited := t.waited
    accepted := t.accepted
    drawn := t.drawn }

/-- BUSY = 1 and the latch holds the command with fields `c`. -/
def inFlight (c : LatCmd) (s : State) : Prop := s.status.busy = true ∧ s.latCmd = c

/-- OP = w[3:0] (30_encoding.md R70). -/
def opOf (w : Word) : BitVec 4 := w.extractLsb' 0 4

/-- TSEL, input width, output width and table of 30_encoding.md R72. -/
def permRows : List (BitVec 3 × Nat × Nat × List Nat) :=
  [(0, 64, 56, tablePc1), (1, 56, 48, tablePc2), (2, 32, 48, tableE), (3, 32, 32, tableP), (4, 64, 64, tableIp),
   (5, 64, 64, tableFp)]

/-- The rows of 30_encoding.md R74: match, mask, and the command with the fields R73 gives it. -/
def codeRows : List (Word × Word × (Word → Instr)) :=
  [(0x0000000000000001, 0xFFFFFFFFFFFFFFFF, fun _ => .encrypt),
   (0x0000000000000002, 0xFFFFFFFFFFFFFFFF, fun _ => .keysched),
   (0x0000000000000003, 0xFFFFFFFFFFFFFFFF, fun _ => .round),
   (0x0000000000000004, 0xFFFFFFFFFFFFFFFF, fun _ => .sbox),
   (0x0000000000000005, 0xFFFFFFFFFFFFF8FF, fun w => .permute (w.extractLsb' 8 3)),
   (0x0000000000000006, 0xFFFFFFFFC080FFFF, fun w => .rotl (w.extractLsb' 16 7) (w.extractLsb' 24 6)),
   (0x0000000000000007, 0xFFFFFFFFC080FFFF, fun w => .rotr (w.extractLsb' 16 7) (w.extractLsb' 24 6))]

/-- `cum[i] = SH[0] + ... + SH[i]` as 41_key_schedule.md R131 lists it. -/
def cumulative : List Nat := [1, 2, 4, 6, 8, 10, 12, 14, 15, 17, 19, 21, 23, 25, 27, 28]

/-- Textbook DES of 43_block_cipher.md R153: IP, the sixteen rounds, the un-swap, FP. -/
def textbookDes (p k : Word) : Word :=
  permute 64 tableFp (swapHalves ((keySchedule k).foldl feistelRound (permute 64 tableIp p)))

/-- Two keys that differ in parity bits only, DES bits 8, 16, ..., 64 (10_state.md R24). -/
def sameButParity (k k' : Word) : Prop := k &&& 0xFEFEFEFEFEFEFEFE = k' &&& 0xFEFEFEFEFEFEFEFE

/-- The next host line is a Reset. -/
def resetNext (s : State) : Prop := ∃ rest, s.program = .reset :: rest

/-- The next host line writes CMD, directly or through the bus adapter. -/
def requestNext (s : State) : Prop :=
  (∃ v rest, s.program = .wr 0 v :: rest) ∨
    (∃ addr bytes rest, s.program = .busWr addr bytes :: rest ∧ busIndex addr bytes.length = .ok 0)

/-- The next host line writes the register of index `idx`, directly or through the bus adapter. -/
def writeNext (idx : BitVec 5) (s : State) : Prop :=
  (∃ v rest, s.program = .wr idx v :: rest) ∨
    (∃ addr bytes rest, s.program = .busWr addr bytes :: rest ∧ busIndex addr bytes.length = .ok idx)

/-- A host line that goes through the bus adapter. -/
def isBusLine : HostLine → Bool
  | .busWr _ _ => true
  | .busRd _ _ _ => true
  | _ => false

end Sys2Proof.Claims

open Sys2Proof Sys2Proof.Machine Sys2Proof.Claims

/-! ## Encoding -/

/-- The encoding examples of 30_encoding.md section 5, which the spec marks as its own derivation: the words of the legal forms, and the
illegal examples with their errors. -/
def Obligations.SpecWordsDecode : Prop :=
  decode 0x0000000000000001 = .ok .encrypt ∧ decode 0x0000000000000002 = .ok .keysched ∧
  decode 0x0000000000000003 = .ok .round ∧ decode 0x0000000000000004 = .ok .sbox ∧
  decode 0x0000000000000005 = .ok (.permute 0) ∧ decode 0x0000000000000105 = .ok (.permute 1) ∧
  decode 0x0000000000000205 = .ok (.permute 2) ∧ decode 0x0000000000000305 = .ok (.permute 3) ∧
  decode 0x0000000000000405 = .ok (.permute 4) ∧ decode 0x0000000000000505 = .ok (.permute 5) ∧
  decode 0x00000000011C0006 = .ok (.rotl 28 1) ∧ decode 0x00000000021C0006 = .ok (.rotl 28 2) ∧
  decode 0x00000000011C0007 = .ok (.rotr 28 1) ∧ decode 0x0000000020400006 = .ok (.rotl 64 32) ∧
  decode 0x0000000000400006 = .ok (.rotl 64 0) ∧ decode 0x000000003F400007 = .ok (.rotr 64 63) ∧
  decode 0x0000000000010006 = .ok (.rotl 1 0) ∧
  decode 0x0000000000000000 = .error .illegalCmd ∧ decode 0x0000000000000011 = .error .illegalCmd ∧
  decode 0x0000000000000101 = .error .illegalCmd ∧ decode 0x0000000000000605 = .error .badTsel ∧
  decode 0x0000000000000006 = .error .invalidWidth ∧ decode 0x0000000000410006 = .error .invalidWidth ∧
  decode 0x000000001C1C0006 = .error .invalidShift

/-- Decoding and encoding agree, both ways: every command at every field value comes back from its word as its row, a
well-formed one from the whole decoder, and a word that decodes is the word of what it decodes to. -/
def Obligations.DecodeInvertsEncode : Prop :=
  (∀ i : Instr, decodeRow (encode i) = some i) ∧
  (∀ i : Instr, i.wf = true → decode (encode i) = .ok i) ∧
  (∀ (w : Word) (i : Instr), decodeRow w = some i → encode i = w) ∧
  (∀ (w : Word) (i : Instr), decode w = .ok i → i.wf = true ∧ encode i = w)

/-- The decoder is the table of 30_encoding.md R74, whatever the order of its rows: a word that matches a row selects that row's
command with its fields, a word that matches none selects none, and "At most one row matches any word" (R75, which the spec marks as
its own derivation). -/
def Obligations.RowsDoNotOverlap : Prop :=
  ∀ w : Word,
    (∀ r ∈ codeRows, w &&& r.2.1 = r.1 → decodeRow w = some (r.2.2 w)) ∧
    ((∀ r ∈ codeRows, w &&& r.2.1 ≠ r.1) → decodeRow w = none) ∧
    (∀ r ∈ codeRows, ∀ r' ∈ codeRows, w &&& r.2.1 = r.1 → w &&& r'.2.1 = r'.1 → r = r')

/-- 30_encoding.md R76: exactly the words with a reserved OP, a reserved bit or an unused field set are illegal, and a
request with one, on an idle core, ends with code 1. -/
def Obligations.IllegalWordsExactly : Prop :=
  ∀ w : Word,
    (decode w = .error .illegalCmd ↔
      opOf w = 0 ∨ opOf w ≥ 8 ∨ w &&& rsvMask ≠ 0 ∨
      (opOf w ≠ 5 ∧ fieldTsel w ≠ 0) ∨
      (opOf w ≠ 6 ∧ opOf w ≠ 7 ∧ (fieldWidth w ≠ 0 ∨ fieldAmt w ≠ 0))) ∧
    ∀ s : State, s.status.busy = false → decode w = .error .illegalCmd →
      hostWrite 0 w s = .next (errorState 1 s)

/-- A step with a request for a word that selects a command runs `exec` of that command on the state with the host's line
taken; the engine's step runs `exec` of the latched command; a step that is not the engine's is the host's next line, and an idle
machine whose host has none stays as it is (logs 2 and 8). -/
def Obligations.StepRunsDecodedCommand : Prop :=
  (∀ (s : State) (w : Word) (rest : List HostLine) (i : Instr),
    s.status.busy = false → s.program = .wr 0 (.lit w) :: rest → decodeRow w = some i →
      step s = exec i { s with program := rest, waited := s.waited + 1 }) ∧
  (∀ (s : State) (i : Instr), engineTurn s = true → latInstr s.latCmd = some i → step s = exec i s) ∧
  (∀ (s : State) (l : HostLine) (rest : List HostLine), engineTurn s = false → s.program = l :: rest →
    step s = hostLine l { s with program := rest, waited := s.waited + 1 }) ∧
  (∀ s : State, s.status.busy = false → s.program = [] → step s = .next s)

/-- A word placed by `withFetchWord` is run by the very next step, as the command the decoder reads from it. -/
def Obligations.PlacedWordRunsNext : Prop :=
  ∀ (s : State) (nbits w : Nat) (i : Instr), decodeTableWord nbits w = some i →
    step (s.withFetchWord nbits w) =
      exec i { s with waited := s.waited + 1, status := { s.status with busy := false } }

/-! ## The pure functions -/

/-- 40_primitives.md R117: register bit m - k of the output is register bit n_in - t_k of the input. -/
def Obligations.PermuteMovesEachBit : Prop :=
  ∀ (n : Nat) (table : List Nat) (v : BitVec n), (∀ t ∈ table, 1 ≤ t ∧ t ≤ n) →
    ∀ k, 1 ≤ k → k ≤ table.length →
      (permute table.length table v).getLsbD (table.length - k) = v.getLsbD (n - table.getD (k - 1) 0)

/-- The permutation laws of 40_primitives.md, which the spec marks as its own derivation: P, IP and FP are
bijections, IP and FP undo each other, E, PC-1 and PC-2 are no bijections, and no selector of PERMUTE undoes P. -/
def Obligations.PermutationLaws : Prop :=
  (∀ v : Word, permute 64 tableFp (permute 64 tableIp v) = v) ∧
  (∀ v : Word, permute 64 tableIp (permute 64 tableFp v) = v) ∧
  Function.Bijective (fun v : BitVec 32 => permute 32 tableP v) ∧
  Function.Bijective (fun v : Word => permute 64 tableIp v) ∧
  Function.Bijective (fun v : Word => permute 64 tableFp v) ∧
  ¬ Function.Bijective (fun v : BitVec 32 => permute 48 tableE v) ∧
  ¬ Function.Bijective (fun v : Word => permute 56 tablePc1 v) ∧
  ¬ Function.Bijective (fun v : BitVec 56 => permute 48 tablePc2 v) ∧
  (∀ t : BitVec 3, ∃ v : BitVec 32, permuteSel t ((permute 32 tableP v).setWidth 64) ≠ v.setWidth 64)

/-- 40_primitives.md R118: on its domain RotL is the formula on integers, moves bit j to bit (j + s) mod n, has no bit at or
above n, and is the identity for amount 0; an amount that is not below the width fails with INVALID_SHIFT. -/
def Obligations.RotLRotates : Prop :=
  (∀ (v : Word) (n s : Nat), 1 ≤ n → n ≤ 64 → s < n → v.toNat < 2 ^ n →
    (rotL v n s).toNat = ((v.toNat <<< s) ||| (v.toNat >>> (n - s))) &&& (2 ^ n - 1) ∧
    (∀ j, j < n → (rotL v n s).getLsbD ((j + s) % n) = v.getLsbD j) ∧
    (rotL v n s).toNat < 2 ^ n ∧
    rotL v n 0 = v) ∧
  (∀ (n : BitVec 7) (a : BitVec 6) (s : State), s.status.busy = false → 1 ≤ n.toNat → n.toNat ≤ 64 → a.toNat ≥ n.toNat →
    exec (.rotl n a) s = .next (errorState 4 s))

/-- 40_primitives.md R119: the formula on integers, RotR by s is RotL by n - s, and amount 0 is the identity. -/
def Obligations.RotRIsRotLOfTheRest : Prop :=
  ∀ (v : Word) (n s : Nat), 1 ≤ n → n ≤ 64 → s < n → v.toNat < 2 ^ n →
    (rotR v n s).toNat = ((v.toNat >>> s) ||| (v.toNat <<< (n - s))) &&& (2 ^ n - 1) ∧
    (0 < s → rotR v n s = rotL v n (n - s)) ∧
    rotR v n 0 = v

/-- Rotating left and then right by one amount gives the value back, and the other way round. -/
def Obligations.RotationsUndoEachOther : Prop :=
  ∀ (v : Word) (n s : Nat), 1 ≤ n → n ≤ 64 → s < n → v.toNat < 2 ^ n →
    rotR (rotL v n s) n s = v ∧ rotL (rotR v n s) n s = v

/-- 40_primitives.md R120: output nibble y[31-4i : 28-4i] is S_(i+1)[row][col] for group g = x[47-6i : 42-6i], row
2*g[5] + g[0], column g[4:1]. -/
def Obligations.SboxBankLooksUpEachGroup : Prop :=
  ∀ (x : BitVec 48) (i : Fin 8),
    (sboxBank x).extractLsb' (28 - 4 * i.val) 4 =
      ((sboxOf i).getD
        (2 * (x.getLsbD (47 - 6 * i.val)).toNat + (x.getLsbD (42 - 6 * i.val)).toNat) []).getD
        ((x.extractLsb' (43 - 6 * i.val) 4).toNat) 0

/-- 41_key_schedule.md's closed form of the round keys, which the spec marks as its own derivation: the
rotations accumulate, so each round key is PC-2 of the PC-1 halves rotated by cum[i] mod 28, and K[15] is PC-2 of the unrotated PC-1 output; the listed sums are those of the shift schedule. -/
def Obligations.RotationsAccumulate : Prop :=
  (∀ i, i < 16 → cumulative.getD i 0 = (shiftSchedule.take (i + 1)).sum) ∧
  ∀ k : Word,
    (∀ i, i < 16 →
      (keySchedule k)[i]? = some (permute 48 tablePc2
        (rotL ((permute 56 tablePc1 k).extractLsb' 28 28) 28 (cumulative.getD i 0 % 28) ++
          rotL ((permute 56 tablePc1 k).extractLsb' 0 28) 28 (cumulative.getD i 0 % 28)))) ∧
    (keySchedule k)[15]? = some (permute 48 tablePc2 (permute 56 tablePc1 k))

/-- 41_key_schedule.md R132: every key is accepted without error, and gives exactly 16 keys that no parity bit affects. -/
def Obligations.ParityIsNeverChecked : Prop :=
  (∀ k : Word, (keySchedule k).length = 16) ∧
  (∀ k k' : Word, sameButParity k k' → keySchedule k = keySchedule k') ∧
  (∀ s : State, s.status.busy = false → ∃ t, exec .keysched s = .next t ∧ latched ⟨2, 0, 0, 0⟩ s t)

/-- 41_key_schedule.md's weak keys, which the spec marks as its own derivation: exactly 16 keys, not necessarily distinct; a key whose
C0 and D0 are each all zeros or all ones gives 16 equal keys; the examples. -/
def Obligations.WeakKeysRepeat : Prop :=
  (∀ k : Word, (keySchedule k).length = 16) ∧
  (∀ k : Word, (keyHalfC k = 0 ∨ keyHalfC k = BitVec.allOnes 28) → (keyHalfD k = 0 ∨ keyHalfD k = BitVec.allOnes 28) →
    keySchedule k = List.replicate 16 (permute 48 tablePc2 (permute 56 tablePc1 k))) ∧
  keySchedule 0x0000000000000000 = List.replicate 16 0x000000000000 ∧
  keySchedule 0x0101010101010101 = List.replicate 16 0x000000000000 ∧
  keySchedule 0xFFFFFFFFFFFFFFFF = List.replicate 16 0xFFFFFFFFFFFF ∧
  keySchedule 0xFEFEFEFEFEFEFEFE = List.replicate 16 0xFFFFFFFFFFFF ∧
  keySchedule 0x1F1F1F1F0E0E0E0E = List.replicate 16 0x000000FFFFFF

/-- 42_feistel_round.md's invertibility, which the spec marks as its own derivation: a round's output determines its input. -/
def Obligations.RoundIsInvertible : Prop :=
  ∀ (x : Word) (k : BitVec 48),
    rightHalf x = leftHalf (feistelRound x k) ∧
    leftHalf x = rightHalf (feistelRound x k) ^^^ feistelF (leftHalf (feistelRound x k)) k ∧
    ∀ y : Word, feistelRound x k = feistelRound y k → x = y

/-- 43_block_cipher.md's relation to textbook DES, which the spec marks as its own derivation: the
source's variant is textbook DES of the FP-permuted block, and textbook DES is the source's variant of the IP-permuted one; the example. -/
def Obligations.EncryptIsTextbookDesWithoutIp : Prop :=
  (∀ x k : Word, encrypt x k = textbookDes (permute 64 tableFp x) k) ∧
  (∀ p k : Word, encrypt (permute 64 tableIp p) k = textbookDes p k) ∧
  encrypt 0xCC00CCFFF0AAF0AA 0x133457799BBCDFF1 = 0x85E813540F0AB405 ∧
  encrypt 0x0123456789ABCDEF 0x133457799BBCDFF1 = 0x2D9DDEE626003682

/-- 43_block_cipher.md's complementation, which the spec marks as its own derivation: complementing block and key complements the
result. -/
def Obligations.EncryptComplements : Prop :=
  (∀ x k : Word, encrypt (~~~x) (~~~k) = ~~~(encrypt x k)) ∧
  encrypt (~~~0x0123456789ABCDEF) (~~~0x133457799BBCDFF1) = 0xD2622119D9FFC97D

/-! ## The commands -/

/-- 43_block_cipher.md R152: the word, the acceptance of every operand, Complete writing DOUT and nothing else of the data
registers (RK not), the illegal words, the corner cases and the example. -/
def Obligations.EncryptCompletes : Prop :=
  encode .encrypt = 0x0000000000000001 ∧
  (∀ s : State, s.status.busy = false → ∃ t, exec .encrypt s = .next t ∧ latched ⟨1, 0, 0, 0⟩ s t) ∧
  (∀ s : State, inFlight ⟨1, 0, 0, 0⟩ s → exec .encrypt s = .next (doneState (encrypt s.latDin s.latKey) s)) ∧
  (∀ w : Word, opOf w = 1 → w ≠ 1 → decode w = .error .illegalCmd) ∧
  (∀ x k k' : Word, sameButParity k k' → encrypt x k = encrypt x k') ∧
  encrypt 0 0 = 0x8CA64DE9C1B123A7 ∧ textbookDes 0 0 = 0x8CA64DE9C1B123A7 ∧
  encrypt 0xFFFFFFFFFFFFFFFF 0xAAAAAAAAAAAAAAAA = 0xF32823B6FC574774 ∧
  textbookDes 0xFFFFFFFFFFFFFFFF 0xAAAAAAAAAAAAAAAA = 0xF32823B6FC574774

/-- 41_key_schedule.md R133: the word, the acceptance of every key, Complete writing all sixteen RK registers and not DOUT, the
illegal words, a weak key and the example. -/
def Obligations.KeyschedCompletes : Prop :=
  encode .keysched = 0x0000000000000002 ∧
  (∀ s : State, s.status.busy = false → ∃ t, exec .keysched s = .next t ∧ latched ⟨2, 0, 0, 0⟩ s t) ∧
  (∀ s : State, inFlight ⟨2, 0, 0, 0⟩ s →
    ∃ t, exec .keysched s = .next t ∧
      (∀ i : Fin 16, t.rk.get i = ((keySchedule s.latKey).getD i.val 0).setWidth 64) ∧
      t = { doneState s.dout s with rk := t.rk }) ∧
  (∀ w : Word, opOf w = 2 → w ≠ 2 → decode w = .error .illegalCmd) ∧
  keySchedule 0 = List.replicate 16 0 ∧
  (keySchedule 0x133457799BBCDFF1)[0]? = some 0x1B02EFFC7072 ∧
  (keySchedule 0x133457799BBCDFF1)[15]? = some 0xCB3D8B0E17F5

/-- 42_feistel_round.md R142: the word, the check of AUX, Complete writing `R || (L XOR f(R, K))`, the illegal words, the corner
cases and the example with its intermediate values. -/
def Obligations.RoundCompletes : Prop :=
  encode .round = 0x0000000000000003 ∧
  (∀ s : State, s.status.busy = false → s.aux.toNat < 2 ^ 48 →
    ∃ t, exec .round s = .next t ∧ latched ⟨3, 0, 0, 0⟩ s t) ∧
  (∀ s : State, s.status.busy = false → s.aux.toNat ≥ 2 ^ 48 → exec .round s = .next (errorState 5 s)) ∧
  (∀ s : State, inFlight ⟨3, 0, 0, 0⟩ s → s.latAux.toNat < 2 ^ 48 →
    exec .round s = .next (doneState (s.latDin.extractLsb' 0 32 ++ (s.latDin.extractLsb' 32 32 ^^^
      permute 32 tableP (sboxBank (permute 48 tableE (s.latDin.extractLsb' 0 32) ^^^ s.latAux.extractLsb' 0 48)))) s)) ∧
  (∀ w : Word, opOf w = 3 → w ≠ 3 → decode w = .error .illegalCmd) ∧
  feistelF 0 0 = 0xD8D8DBBC ∧ feistelRound 0 0 = 0x00000000D8D8DBBC ∧
  feistelRound 0xFFFFFFFFFFFFFFFF 0xFFFFFFFFFFFF = 0xFFFFFFFF27272443 ∧
  (∀ (x : Word) (k : BitVec 48), leftHalf (feistelRound x k) = rightHalf x) ∧
  permute 64 tableIp (0x0123456789ABCDEF : Word) = 0xCC00CCFFF0AAF0AA ∧
  (keySchedule 0x133457799BBCDFF1)[0]? = some 0x1B02EFFC7072 ∧
  feistelRound 0xCC00CCFFF0AAF0AA 0x1B02EFFC7072 = 0xF0AAF0AAEF4A6544 ∧
  permute 48 tableE (0xF0AAF0AA : BitVec 32) = 0x7A15557A1555 ∧
  (0x7A15557A1555 : BitVec 48) ^^^ 0x1B02EFFC7072 = 0x6117BA866527 ∧
  sboxBank 0x6117BA866527 = 0x5C82B597 ∧ permute 32 tableP (0x5C82B597 : BitVec 32) = 0x234AA9BB

/-- 40_primitives.md R124: the word, the check of DIN, Complete, the illegal words, the corner cases and the example. -/
def Obligations.SboxCompletes : Prop :=
  encode .sbox = 0x0000000000000004 ∧
  (∀ s : State, s.status.busy = false → s.din.toNat < 2 ^ 48 →
    ∃ t, exec .sbox s = .next t ∧ latched ⟨4, 0, 0, 0⟩ s t) ∧
  (∀ s : State, s.status.busy = false → s.din.toNat ≥ 2 ^ 48 → exec .sbox s = .next (errorState 5 s)) ∧
  (∀ s : State, inFlight ⟨4, 0, 0, 0⟩ s → s.latDin.toNat < 2 ^ 48 →
    exec .sbox s = .next (doneState ((sboxBank (s.latDin.setWidth 48)).setWidth 64) s)) ∧
  (∀ w : Word, opOf w = 4 → w ≠ 4 → decode w = .error .illegalCmd) ∧
  sboxBank 0 = 0xEFA72C4D ∧ sboxBank 0xFFFFFFFFFFFF = 0xD9CE3DCB ∧ sboxBank 0x0607A10BF56A = 0x0083CD5C ∧
  (∀ i : Fin 8, (0x0607A10BF56A : BitVec 48).extractLsb' (42 - 6 * i.val) 6 =
    ([0b000001, 0b100000, 0b011110, 0b100001, 0b000010, 0b111111, 0b010101, 0b101010] : List (BitVec 6)).getD i.val 0) ∧
  sboxBank 0x6117BA866527 = 0x5C82B597

/-- 40_primitives.md R121: the word of every TSEL, the check of DIN against the table's input width, BAD_TSEL for 6 and 7 whatever
DIN holds, Complete, the illegal words, the corner cases and the example. -/
def Obligations.PermuteCompletes : Prop :=
  (∀ t : BitVec 3, encode (.permute t) = 0x0000000000000005 ||| (t.setWidth 64 <<< 8)) ∧
  (∀ r ∈ permRows, ∀ s : State, s.status.busy = false → s.din.toNat < 2 ^ r.2.1 →
    ∃ t, exec (.permute r.1) s = .next t ∧ latched ⟨5, r.1, 0, 0⟩ s t) ∧
  (∀ r ∈ permRows, ∀ s : State, s.status.busy = false → s.din.toNat ≥ 2 ^ r.2.1 →
    exec (.permute r.1) s = .next (errorState 5 s)) ∧
  (∀ t : BitVec 3, t.toNat ≥ 6 → ∀ s : State, s.status.busy = false → exec (.permute t) s = .next (errorState 2 s)) ∧
  (∀ r ∈ permRows, ∀ s : State, inFlight ⟨5, r.1, 0, 0⟩ s → s.latDin.toNat < 2 ^ r.2.1 →
    exec (.permute r.1) s =
      .next (doneState ((permute r.2.2.1 r.2.2.2 (s.latDin.setWidth r.2.1)).setWidth 64) s)) ∧
  (∀ w : Word, opOf w = 5 → (w &&& rsvMask ≠ 0 ∨ fieldWidth w ≠ 0 ∨ fieldAmt w ≠ 0) → decode w = .error .illegalCmd) ∧
  (∀ r ∈ permRows, permute r.2.2.1 r.2.2.2 (0 : BitVec r.2.1) = 0 ∧
    permute r.2.2.1 r.2.2.2 (BitVec.allOnes r.2.1) = BitVec.allOnes r.2.2.1) ∧
  permute 48 tableE (0x80000000 : BitVec 32) = 0x400000000001 ∧
  permute 48 tableE (0x00000001 : BitVec 32) = 0x800000000002 ∧
  (∀ v v' : Word, sameButParity v v' → permute 56 tablePc1 v = permute 56 tablePc1 v') ∧
  permute 56 tablePc1 (0x0101010101010101 : Word) = 0 ∧
  permute 56 tablePc1 (0x133457799BBCDFF1 : Word) = 0xF0CCAAF556678F

/-- 40_primitives.md R122: the word of every width and amount, the three errors in their order, the acceptance, Complete as the
formula on integers, the illegal words, the corner cases and the example. -/
def Obligations.RotlCompletes : Prop :=
  (∀ (n : BitVec 7) (a : BitVec 6),
    encode (.rotl n a) = 0x0000000000000006 ||| (n.setWidth 64 <<< 16) ||| (a.setWidth 64 <<< 24)) ∧
  (∀ (n : BitVec 7) (a : BitVec 6) (s : State), s.status.busy = false →
    ∃ t, exec (.rotl n a) s = .next t ∧
      if n.toNat = 0 ∨ n.toNat > 64 then t = errorState 3 s
      else if a.toNat ≥ n.toNat then t = errorState 4 s
      else if s.din.toNat ≥ 2 ^ n.toNat then t = errorState 5 s
      else latched ⟨6, 0, n, a⟩ s t) ∧
  (∀ (n : BitVec 7) (a : BitVec 6) (s : State), inFlight ⟨6, 0, n, a⟩ s →
    1 ≤ n.toNat → n.toNat ≤ 64 → a.toNat < n.toNat → s.latDin.toNat < 2 ^ n.toNat →
      exec (.rotl n a) s = .next (doneState (BitVec.ofNat 64
        (((s.latDin.toNat <<< a.toNat) ||| (s.latDin.toNat >>> (n.toNat - a.toNat))) &&& (2 ^ n.toNat - 1))) s)) ∧
  (∀ w : Word, opOf w = 6 → (w &&& rsvMask ≠ 0 ∨ fieldTsel w ≠ 0) → decode w = .error .illegalCmd) ∧
  (∀ (v : Word) (n s : Nat), 1 ≤ n → n ≤ 64 → s < n → v.toNat < 2 ^ n →
    rotL v n 0 = v ∧ (rotL v n s).toNat < 2 ^ n) ∧
  (∀ a : BitVec 6, (Instr.rotl 1 a).wf = true → a = 0) ∧
  (∀ l r : BitVec 32, rotL (l ++ r : Word) 64 32 = r ++ l) ∧
  rotL (0x000000000F0CCAAF : Word) 28 1 = 0x000000000E19955F

/-- 40_primitives.md R123: the same for the right rotation. -/
def Obligations.RotrCompletes : Prop :=
  (∀ (n : BitVec 7) (a : BitVec 6),
    encode (.rotr n a) = 0x0000000000000007 ||| (n.setWidth 64 <<< 16) ||| (a.setWidth 64 <<< 24)) ∧
  (∀ (n : BitVec 7) (a : BitVec 6) (s : State), s.status.busy = false →
    ∃ t, exec (.rotr n a) s = .next t ∧
      if n.toNat = 0 ∨ n.toNat > 64 then t = errorState 3 s
      else if a.toNat ≥ n.toNat then t = errorState 4 s
      else if s.din.toNat ≥ 2 ^ n.toNat then t = errorState 5 s
      else latched ⟨7, 0, n, a⟩ s t) ∧
  (∀ (n : BitVec 7) (a : BitVec 6) (s : State), inFlight ⟨7, 0, n, a⟩ s →
    1 ≤ n.toNat → n.toNat ≤ 64 → a.toNat < n.toNat → s.latDin.toNat < 2 ^ n.toNat →
      exec (.rotr n a) s = .next (doneState (BitVec.ofNat 64
        (((s.latDin.toNat >>> a.toNat) ||| (s.latDin.toNat <<< (n.toNat - a.toNat))) &&& (2 ^ n.toNat - 1))) s)) ∧
  (∀ w : Word, opOf w = 7 → (w &&& rsvMask ≠ 0 ∨ fieldTsel w ≠ 0) → decode w = .error .illegalCmd) ∧
  (∀ (v : Word) (n s : Nat), 1 ≤ n → n ≤ 64 → s < n → v.toNat < 2 ^ n →
    rotR v n 0 = v ∧ (0 < s → rotR v n s = rotL v n (n - s))) ∧
  (∀ v : Word, rotR v 64 63 = rotL v 64 1) ∧
  rotR (0x000000000E19955F : Word) 28 1 = 0x000000000F0CCAAF

/-- What each command leaves unchanged where `exec` answers a next state: the operand registers and the host agent always;
DOUT unless it is Complete of a command other than KEYSCHED; RK unless it is Complete of KEYSCHED; the latch and the model's
counters unless the command is accepted without error; at Complete, ERR, ERRCODE and OVR. There is no memory. -/
def Obligations.CommandFrame : Prop :=
  ∀ (i : Instr) (s t : State), exec i s = .next t →
    t.din = s.din ∧ t.key = s.key ∧ t.aux = s.aux ∧ t.program = s.program ∧ t.vars = s.vars ∧ t.drawn = s.drawn ∧
    (t.dout = s.dout ∨ (s.status.busy = true ∧ i ≠ .keysched)) ∧
    (t.rk = s.rk ∨ (s.status.busy = true ∧ i = .keysched)) ∧
    ((t.latCmd = s.latCmd ∧ t.latDin = s.latDin ∧ t.latKey = s.latKey ∧ t.latAux = s.latAux ∧
        t.waited = s.waited ∧ t.accepted = s.accepted) ∨
      (s.status.busy = false ∧ t.status.busy = true)) ∧
    (s.status.busy = true → t.status.err = s.status.err ∧ t.status.errcode = s.status.errcode ∧
      t.status.ovr = s.status.ovr)

/-- A command of the source's design, issued on an idle core and completed, takes two runs of its meaning: the acceptance and
Complete. From an idle state with operands in width the second gives the result of the OPERAND REGISTERS' values at the
request, for each of the seven commands. -/
def Obligations.TwoHalvesGiveTheResult : Prop :=
  ∀ s : State, s.status.busy = false →
    (∃ t, exec .encrypt s = .next t ∧ exec .encrypt t = .next (doneState (encrypt s.din s.key) t)) ∧
    (∃ t u, exec .keysched s = .next t ∧ exec .keysched t = .next u ∧ u.dout = s.dout ∧ u.rk = rkOfKey s.key) ∧
    (s.aux.toNat < 2 ^ 48 →
      ∃ t, exec .round s = .next t ∧ exec .round t = .next (doneState (feistelRound s.din (s.aux.setWidth 48)) t)) ∧
    (s.din.toNat < 2 ^ 48 →
      ∃ t, exec .sbox s = .next t ∧ exec .sbox t = .next (doneState ((sboxBank (s.din.setWidth 48)).setWidth 64) t)) ∧
    (∀ r ∈ permRows, s.din.toNat < 2 ^ r.2.1 →
      ∃ t, exec (.permute r.1) s = .next t ∧
        exec (.permute r.1) t =
          .next (doneState ((permute r.2.2.1 r.2.2.2 (s.din.setWidth r.2.1)).setWidth 64) t)) ∧
    (∀ (n : BitVec 7) (a : BitVec 6), (Instr.rotl n a).wf = true → s.din.toNat < 2 ^ n.toNat →
      (∃ t, exec (.rotl n a) s = .next t ∧ exec (.rotl n a) t = .next (doneState (rotL s.din n.toNat a.toNat) t)) ∧
      (∃ t, exec (.rotr n a) s = .next t ∧ exec (.rotr n a) t = .next (doneState (rotR s.din n.toNat a.toNat) t)))

/-! ## The command lifecycle -/

/-- 60_exceptions.md R160: a request on an idle core, from the decoder of 30_encoding.md R75 and the operand check of R163 on. -/
def Obligations.AcceptanceOfARequest : Prop :=
  ∀ (w : Word) (s : State), s.status.busy = false →
    ∃ t, hostWrite 0 w s = .next t ∧
      match decode w with
      | .error e => t = errorState (errCode e) s
      | .ok i =>
        match operandCheck i s.din s.aux with
        | some e => t = errorState (errCode e) s
        | none => latched (latFields i) s t

/-- 60_exceptions.md R161: the state after an error is the state before the request, except for STATUS, which has BUSY 0, DONE 1,
ERR 1 and the code of an error that was raised. -/
def Obligations.ErrorsArePrecise : Prop :=
  ∀ (w : Word) (s t : State), s.status.busy = false → hostWrite 0 w s = .next t → t.status.err = true →
    t = { s with status := t.status } ∧ t.status.busy = false ∧ t.status.done = true ∧
    ∃ e : ErrKind, t.status.errcode = errCode e ∧
      (decode w = .error e ∨ ∃ i, decode w = .ok i ∧ operandCheck i s.din s.aux = some e)

/-- 60_exceptions.md R163: for each legal command, WIDTH_ERROR exactly where an operand is over-wide, else no
error; made at acceptance on the live registers, after decoding succeeds. -/
def Obligations.OperandCheckByWidth : Prop :=
  ∀ (i : Instr) (d a : Word), i.wf = true →
    (operandCheck i d a = none ∨ operandCheck i d a = some .widthError) ∧
    (operandCheck i d a = some .widthError ↔
      match i with
      | .encrypt => False
      | .keysched => False
      | .round => a.toNat ≥ 2 ^ 48
      | .sbox => d.toNat ≥ 2 ^ 48
      | .permute t => d.toNat ≥ 2 ^ ([64, 56, 32, 32, 64, 64].getD t.toNat 64)
      | .rotl n _ => n.toNat < 64 ∧ d.toNat ≥ 2 ^ n.toNat
      | .rotr n _ => n.toNat < 64 ∧ d.toNat ≥ 2 ^ n.toNat) ∧
    ∀ (w : Word) (s : State), s.status.busy = false → decode w = .ok i →
      ∃ t, hostWrite 0 w s = .next t ∧
        if operandCheck i s.din s.aux = none then latched (latFields i) s t else t = errorState 5 s

/-- 60_exceptions.md R164: a request while busy only sets OVR, whatever the word; and OVR, once set, stays over every step that is
neither an accepted request nor a Reset. -/
def Obligations.BusyRequestIsDropped : Prop :=
  (∀ (w : Word) (s : State), s.status.busy = true →
    hostWrite 0 w s = .next { s with status := { s.status with ovr := true } }) ∧
  (∀ s t : State, step s = .next t → s.status.ovr = true → t.status.ovr = false →
    engineTurn s = false ∧ ((s.status.busy = false ∧ requestNext s) ∨ resetNext s))

/-- 60_exceptions.md R165 with the invariant: Complete, when BUSY = 1, cannot fail; it writes what the latched OP names, BUSY 0 and
DONE 1, and changes nothing else; and the engine never moves while BUSY = 0. -/
def Obligations.CompleteCannotFail : Prop :=
  (∀ s : State, engineTurn s = true → s.status.busy = true) ∧
  ∀ s : State, MachineInv s → s.status.busy = true →
    ∃ t, engineComplete s = .next t ∧
      t = { s with
        dout := t.dout
        rk := t.rk
        status := { busy := false, done := true, err := s.status.err, ovr := s.status.ovr, errcode := s.status.errcode } } ∧
      (s.latCmd.op = 1 → t.dout = encrypt s.latDin s.latKey ∧ t.rk = s.rk) ∧
      (s.latCmd.op = 2 → t.dout = s.dout ∧
        ∀ i : Fin 16, t.rk.get i = ((keySchedule s.latKey).getD i.val 0).setWidth 64) ∧
      (s.latCmd.op = 3 → t.dout = feistelRound s.latDin (s.latAux.extractLsb' 0 48) ∧ t.rk = s.rk) ∧
      (s.latCmd.op = 4 → t.dout = (sboxBank (s.latDin.setWidth 48)).setWidth 64 ∧ t.rk = s.rk) ∧
      (s.latCmd.op = 5 → t.rk = s.rk ∧ ∀ r ∈ permRows, r.1 = s.latCmd.tsel →
        t.dout = (permute r.2.2.1 r.2.2.2 (s.latDin.setWidth r.2.1)).setWidth 64) ∧
      (s.latCmd.op = 6 → t.dout = rotL s.latDin s.latCmd.width.toNat s.latCmd.amt.toNat ∧ t.rk = s.rk) ∧
      (s.latCmd.op = 7 → t.dout = rotR s.latDin s.latCmd.width.toNat s.latCmd.amt.toNat ∧ t.rk = s.rk)

/-- The order of the errors: a word that selects no row reports 1 whatever else; a bad selector 2 whatever DIN holds; a bad width
3 before a bad amount; a bad amount 4 before an over-wide DIN; and the width error only where none of these applies. -/
def Obligations.FirstErrorIsReported : Prop :=
  ∀ (w : Word) (s t : State), s.status.busy = false → hostWrite 0 w s = .next t →
    (decodeRow w = none → t.status.errcode = 1) ∧
    (∀ tsel, decodeRow w = some (.permute tsel) → tsel.toNat ≥ 6 → t.status.errcode = 2) ∧
    (∀ n a, (decodeRow w = some (.rotl n a) ∨ decodeRow w = some (.rotr n a)) →
      (n.toNat = 0 ∨ n.toNat > 64 → t.status.errcode = 3) ∧
      (1 ≤ n.toNat → n.toNat ≤ 64 → a.toNat ≥ n.toNat → t.status.errcode = 4)) ∧
    (t.status.errcode = 5 → ∃ i, decode w = .ok i ∧ operandCheck i s.din s.aux = some .widthError)

/-- 10_state.md R31: a step changes STATUS only as the engine's Complete, a write of CMD or Reset; a host write to any other index
leaves STATUS alone. -/
def Obligations.StatusWriters : Prop :=
  (∀ s t : State, step s = .next t → t.status ≠ s.status →
    (s.status.busy = true ∧ engineTurn s = true) ∨ requestNext s ∨ resetNext s) ∧
  (∀ (idx : BitVec 5) (v : Word) (s t : State), idx ≠ 0 → hostWrite idx v s = .next t → t.status = s.status)

/-- Whole machine: RK changes only at Complete of KEYSCHED or Reset, DOUT only at Complete of another command or Reset, DIN, KEY and
AUX only by a host write of their own index or Reset, and the latch only at a request on an idle core or Reset. -/
def Obligations.RegisterWriters : Prop :=
  ∀ s t : State, step s = .next t →
    (t.rk ≠ s.rk → (engineTurn s = true ∧ s.latCmd.op = 2) ∨ resetNext s) ∧
    (t.dout ≠ s.dout → (engineTurn s = true ∧ s.latCmd.op ≠ 2) ∨ resetNext s) ∧
    (t.din ≠ s.din → writeNext 2 s ∨ resetNext s) ∧
    (t.key ≠ s.key → writeNext 3 s ∨ resetNext s) ∧
    (t.aux ≠ s.aux → writeNext 4 s ∨ resetNext s) ∧
    ((t.latCmd, t.latDin, t.latKey, t.latAux) ≠ (s.latCmd, s.latDin, s.latKey, s.latAux) →
      (s.status.busy = false ∧ requestNext s) ∨ resetNext s)

/-- 70_reset_and_hazards.md R185: a host write of DIN, KEY or AUX while busy is read back at once, changes neither the latch nor
STATUS, and leaves the in-flight command's result as it was. -/
def Obligations.OperandWritesWhileBusyAreSafe : Prop :=
  ∀ (s : State) (v : Word) (idx : BitVec 5), s.status.busy = true → (idx = 2 ∨ idx = 3 ∨ idx = 4) →
    ∃ t, hostWrite idx v s = .next t ∧ hostRead idx t = (v, t) ∧
      t.status = s.status ∧ t.latCmd = s.latCmd ∧ t.latDin = s.latDin ∧ t.latKey = s.latKey ∧ t.latAux = s.latAux ∧
      ∀ u, engineComplete s = .next u →
        ∃ u', engineComplete t = .next u' ∧ u'.dout = u.dout ∧ u'.rk = u.rk ∧ u'.status = u.status ∧
          u'.din = t.din ∧ u'.key = t.key ∧ u'.aux = t.aux

/-- 43_block_cipher.md R154: whatever else two states hold, and whatever ran before, ENCRYPT of equal latched operands writes
equal results. -/
def Obligations.EncryptDependsOnItsOperandsOnly : Prop :=
  ∀ s s' : State, inFlight ⟨1, 0, 0, 0⟩ s → inFlight ⟨1, 0, 0, 0⟩ s' → s.latDin = s'.latDin → s.latKey = s'.latKey →
    ∃ t t', engineComplete s = .next t ∧ engineComplete s' = .next t' ∧ t.dout = t'.dout

/-- The completion guarantee at each step: Complete leaves BUSY 0 and DONE 1; while a command is in flight, a host step that is no
Reset keeps BUSY, DONE and the latch; and on an idle core only a request or Reset changes BUSY, DONE, DOUT or RK. -/
def Obligations.BusyUntilComplete : Prop :=
  (∀ s t : State, engineTurn s = true → step s = .next t → t.status.busy = false ∧ t.status.done = true) ∧
  (∀ s t : State, s.status.busy = true → hostStep s = .next t → ¬ resetNext s →
    t.status.busy = true ∧ t.status.done = s.status.done ∧ t.latCmd = s.latCmd ∧ t.latDin = s.latDin ∧
      t.latKey = s.latKey ∧ t.latAux = s.latAux ∧ t.dout = s.dout ∧ t.rk = s.rk) ∧
  (∀ s t : State, s.status.busy = false → step s = .next t → ¬ requestNext s → ¬ resetNext s →
    t.status.busy = false ∧ t.status.done = s.status.done ∧ t.dout = s.dout ∧ t.rk = s.rk)

/-- Weak fairness as the model has it (log 2): from any busy state whose host never issues a Reset or a bus access, however long it
polls, the engine's turn comes after at most the free number of host steps, with the latched command still in the latch. -/
def Obligations.EngineTurnComes : Prop :=
  ∀ s : State, s.status.busy = true → (∀ l ∈ s.program, l ≠ .reset ∧ isBusLine l = false) →
    ∃ k t, k ≤ Config.latency s.accepted - s.waited ∧ stepN k s = .next t ∧ t.status.busy = true ∧ engineTurn t = true ∧
      t.latCmd = s.latCmd ∧ t.latDin = s.latDin ∧ t.latKey = s.latKey ∧ t.latAux = s.latAux ∧ t.dout = s.dout ∧
      t.rk = s.rk

/-- Either order of a request and Complete, as the free number of the accepted command decides (log 2): Complete first is the
latched command's, the request first is an overrun. -/
def Obligations.RequestAndCompleteInEitherOrder : Prop :=
  ∀ (s : State) (w : Word) (rest : List HostLine), s.status.busy = true → s.program = .wr 0 (.lit w) :: rest →
    step s =
      if Config.latency s.accepted ≤ s.waited then engineComplete s
      else .next { s with
        program := rest
        waited := s.waited + 1
        status := { s.status with ovr := true } }

/-! ## The port and Reset -/

/-- 20_memory.md R50: a host write by its index. -/
def Obligations.HostWriteByIndex : Prop :=
  ∀ (idx : BitVec 5) (v : Word) (s : State),
    hostWrite idx v s =
      if idx = 0 then commandRequest v s
      else if idx = 2 then .next { s with din := v }
      else if idx = 3 then .next { s with key := v }
      else if idx = 4 then .next { s with aux := v }
      else .next s

/-- 20_memory.md R51: a host read by its index changes nothing of the core, and returns the value the rule names wherever it is no
draw. Of a draw nothing is stated: it is any 64-bit value. -/
def Obligations.HostReadByIndex : Prop :=
  ∀ (idx : BitVec 5) (s : State),
    sameCore s (hostRead idx s).2 ∧
    if idx = 0 then (hostRead idx s).1 = 0
    else if idx = 1 then
      (hostRead idx s).1 = (s.status.errcode ++ 0#4 ++ BitVec.ofBool s.status.ovr ++ BitVec.ofBool s.status.err ++
        BitVec.ofBool s.status.done ++ BitVec.ofBool s.status.busy).setWidth 64
    else if idx = 2 then (hostRead idx s).1 = s.din
    else if idx = 3 then (hostRead idx s).1 = s.key
    else if idx = 4 then (hostRead idx s).1 = s.aux
    else if idx = 5 then ¬ (s.status.busy = true ∧ s.latCmd.op ≠ 2) → (hostRead idx s).1 = s.dout
    else if idx.toNat < 16 then (hostRead idx s).1 = 0
    else ¬ (s.status.busy = true ∧ s.latCmd.op = 2) → (hostRead idx s).1 = s.rk.toList.getD (idx.toNat - 16) 0

/-- The model's draws (log 3): a read of DOUT or RK while its command is in flight returns the free value of the draws' count and
counts one; no other read draws. -/
def Obligations.ReadsInFlightAreDraws : Prop :=
  ∀ (idx : BitVec 5) (s : State),
    if (idx = 5 ∧ s.status.busy = true ∧ s.latCmd.op ≠ 2) ∨ (idx.toNat ≥ 16 ∧ s.status.busy = true ∧ s.latCmd.op = 2) then
      hostRead idx s = (Config.draw64 s.drawn, { s with drawn := s.drawn + 1 })
    else (hostRead idx s).2 = s

/-- The STATUS word bit by bit: BUSY 0, DONE 1, ERR 2, OVR 3, ERRCODE 11:8, all other bits 0; and no host write to index 1 changes
anything. -/
def Obligations.StatusWordLayout : Prop :=
  (∀ (f : Status) (j : Nat),
    (statusWord f).getLsbD j =
      if j = 0 then f.busy
      else if j = 1 then f.done
      else if j = 2 then f.err
      else if j = 3 then f.ovr
      else if 8 ≤ j ∧ j ≤ 11 then f.errcode.getLsbD (j - 8)
      else false) ∧
  (∀ (v : Word) (s : State), hostWrite 1 v s = .next s)

/-- 70_reset_and_hazards.md R180: Reset, in every state, busy or not, leaves every piece of the core's state at 0; no Complete is
enabled then, so a command in flight is abandoned. The model's own fields are left out of it. -/
def Obligations.ResetFromEveryState : Prop :=
  ∀ s : State, ∃ t, hostLine .reset s = .next t ∧ engineTurn t = false ∧
    t = { din := 0, key := 0, aux := 0, dout := 0, rk := Vector.replicate 16 0
          status := { busy := false, done := false, err := false, ovr := false, errcode := 0 }
          latCmd := { op := 0, tsel := 0, width := 0, amt := 0 }
          latDin := 0, latKey := 0, latAux := 0
          program := t.program, vars := t.vars, waited := t.waited, accepted := t.accepted, drawn := t.drawn }

/-- WAIT polls STATUS: a round of it is one read of STATUS into its variable, after which the line comes again while BUSY = 1, and
the first read that finds BUSY = 0 ends it. -/
def Obligations.WaitPollsUntilIdle : Prop :=
  ∀ (s : State) (x : Nat), ∃ t, hostLine (.wait x) s = .next t ∧ sameCore s t ∧
    varValue t.vars x = statusWord s.status ∧ (∀ y, y ≠ x → varValue t.vars y = varValue s.vars y) ∧
    (s.status.busy = true → t.program = .wait x :: s.program) ∧ (s.status.busy = false → t.program = s.program)

/-- MOVE copies: two steps on an idle core bring the exact value of the source register into DIN, KEY or AUX and leave STATUS,
DOUT and RK alone. -/
def Obligations.MoveCopiesARegister : Prop :=
  ∀ (s : State) (src : Reg) (x : Nat) (rest : List HostLine), s.status.busy = false → src ≠ .reserved →
    (s.program = linesMove .din src x ++ rest →
      ∃ t, stepN 2 s = .next t ∧ t.din = regValue src s ∧ t.key = s.key ∧ t.aux = s.aux ∧ t.dout = s.dout ∧
        t.rk = s.rk ∧ t.status = s.status ∧ t.program = rest) ∧
    (s.program = linesMove .key src x ++ rest →
      ∃ t, stepN 2 s = .next t ∧ t.key = regValue src s ∧ t.din = s.din ∧ t.aux = s.aux ∧ t.dout = s.dout ∧
        t.rk = s.rk ∧ t.status = s.status ∧ t.program = rest) ∧
    (s.program = linesMove .aux src x ++ rest →
      ∃ t, stepN 2 s = .next t ∧ t.aux = regValue src s ∧ t.din = s.din ∧ t.key = s.key ∧ t.dout = s.dout ∧
        t.rk = s.rk ∧ t.status = s.status ∧ t.program = rest)

/-- RUN ENCRYPT ends, with the ciphertext of the operand registers in DOUT, RK untouched and STATUS = 2, however long the free
latency lets the host poll (log 2). -/
def Obligations.RunEncryptEndsWithTheCiphertext : Prop :=
  ∀ (s : State) (x : Nat) (rest : List HostLine), s.status.busy = false → s.program = linesRun .encrypt x ++ rest →
    ∃ k t, stepN k s = .next t ∧ t.program = rest ∧ t.dout = encrypt s.din s.key ∧ t.rk = s.rk ∧ t.din = s.din ∧
      t.key = s.key ∧ t.aux = s.aux ∧ statusWord t.status = 2 ∧ varValue t.vars x = 2

/-- The bus adapter (log 6): bytes go big-endian, byte i being bits 63-8i to 56-8i; an aligned 8-byte access inside the core's 256 bytes is
the transaction of its index; a misaligned access or one of another width inside them, and any access outside them, is refused by
name. -/
def Obligations.BusAccessIsTheTransaction : Prop :=
  (∀ v : Word, (bytesOfWord v).length = 8 ∧ ∀ i : Fin 8, (bytesOfWord v).getD i.val 0 = v.extractLsb' (56 - 8 * i.val) 8) ∧
  (∀ v : Word, wordOfBytes (bytesOfWord v) = v) ∧
  (∀ (idx : BitVec 5) (bytes : List Byte) (s : State), bytes.length = 8 →
    hostLine (.busWr (Config.coreBase + 8 * idx.toNat) bytes) s = hostWrite idx (wordOfBytes bytes) s) ∧
  (∀ (idx : BitVec 5) (x : Option Nat) (s : State),
    hostLine (.busRd (Config.coreBase + 8 * idx.toNat) 8 x) s = hostLine (.rd idx x) s) ∧
  (∀ (off n : Nat) (bytes : List Byte) (x : Option Nat) (s : State), off < 256 →
    (off % 8 ≠ 0 ∨ bytes.length ≠ 8 → hostLine (.busWr (Config.coreBase + off) bytes) s = .refused .partialAccess) ∧
    (off % 8 ≠ 0 ∨ n ≠ 8 → hostLine (.busRd (Config.coreBase + off) n x) s = .refused .partialAccess)) ∧
  (∀ (addr n : Nat) (bytes : List Byte) (x : Option Nat) (s : State),
    addr < Config.coreBase ∨ Config.coreBase + 256 ≤ addr →
      hostLine (.busWr addr bytes) s = .refused .outsideWindow ∧ hostLine (.busRd addr n x) s = .refused .outsideWindow)

/-! ## The invariant -/

/-- The invariant holds at reset. -/
def Obligations.InvariantAtReset : Prop := MachineInv State.reset

/-- 10_state.md's legal flag combinations, which the spec marks as its own derivation: they hold at
reset and after every step from a state that has them, and the STATUS values of such flags are the ten listed. -/
def Obligations.StatusStaysLegal : Prop :=
  StatusLegal State.reset.status ∧
  (∀ s t : State, StatusLegal s.status → step s = .next t → StatusLegal t.status) ∧
  (∀ w : Word, (∃ f : Status, StatusLegal f ∧ statusWord f = w) ↔
    w ∈ ([0x0, 0x1, 0x2, 0x9, 0xA, 0x106, 0x206, 0x306, 0x406, 0x506] : List Word))

/-- Every step keeps the invariant: the legal STATUS combinations, a latch that an acceptance loaded, zero upper bits in RK, and
the host's variables in canonical form. -/
def Obligations.StepKeepsInvariant : Prop := ∀ s t : State, MachineInv s → step s = .next t → MachineInv t

/-- From a state that meets the invariant no step faults (log 4); a step is refused only where it is the host's turn and its next line a
bus access, with one of the two refusals of the bus adapter (log 6); and every other step answers a next state. -/
def Obligations.StepsNeverFault : Prop :=
  ∀ s : State, MachineInv s →
    (∀ f, step s ≠ .fault f) ∧
    (∀ r, step s = .refused r →
      engineTurn s = false ∧ (∃ l rest, s.program = l :: rest ∧ isBusLine l = true) ∧
        (r = .partialAccess ∨ r = .outsideWindow)) ∧
    (engineTurn s = true ∨ (∀ l rest, s.program = l :: rest → isBusLine l = false) → ∃ t, step s = .next t)
end

