-- ==== Sys2Proof/Laws/State.lean ====
section
/-! SUPPORT. What each named update does to each field of State, and each flag update to each flag; all true by rfl. -/

namespace Sys2Proof.Machine

@[simp] theorem raiseError_din (e : ErrKind) (s : State) : (raiseError e s).din = s.din := rfl
@[simp] theorem raiseError_key (e : ErrKind) (s : State) : (raiseError e s).key = s.key := rfl
@[simp] theorem raiseError_aux (e : ErrKind) (s : State) : (raiseError e s).aux = s.aux := rfl
@[simp] theorem raiseError_dout (e : ErrKind) (s : State) : (raiseError e s).dout = s.dout := rfl
@[simp] theorem raiseError_rk (e : ErrKind) (s : State) : (raiseError e s).rk = s.rk := rfl
@[simp] theorem raiseError_status (e : ErrKind) (s : State) : (raiseError e s).status = flagsError e s.status := rfl
@[simp] theorem raiseError_latCmd (e : ErrKind) (s : State) : (raiseError e s).latCmd = s.latCmd := rfl
@[simp] theorem raiseError_latDin (e : ErrKind) (s : State) : (raiseError e s).latDin = s.latDin := rfl
@[simp] theorem raiseError_latKey (e : ErrKind) (s : State) : (raiseError e s).latKey = s.latKey := rfl
@[simp] theorem raiseError_latAux (e : ErrKind) (s : State) : (raiseError e s).latAux = s.latAux := rfl
@[simp] theorem raiseError_program (e : ErrKind) (s : State) : (raiseError e s).program = s.program := rfl
@[simp] theorem raiseError_vars (e : ErrKind) (s : State) : (raiseError e s).vars = s.vars := rfl
@[simp] theorem raiseError_waited (e : ErrKind) (s : State) : (raiseError e s).waited = s.waited := rfl
@[simp] theorem raiseError_accepted (e : ErrKind) (s : State) : (raiseError e s).accepted = s.accepted := rfl
@[simp] theorem raiseError_drawn (e : ErrKind) (s : State) : (raiseError e s).drawn = s.drawn := rfl

@[simp] theorem clearFlags_din (s : State) : (clearFlags s).din = s.din := rfl
@[simp] theorem clearFlags_key (s : State) : (clearFlags s).key = s.key := rfl
@[simp] theorem clearFlags_aux (s : State) : (clearFlags s).aux = s.aux := rfl
@[simp] theorem clearFlags_dout (s : State) : (clearFlags s).dout = s.dout := rfl
@[simp] theorem clearFlags_rk (s : State) : (clearFlags s).rk = s.rk := rfl
@[simp] theorem clearFlags_status (s : State) : (clearFlags s).status = flagsCleared s.status := rfl
@[simp] theorem clearFlags_latCmd (s : State) : (clearFlags s).latCmd = s.latCmd := rfl
@[simp] theorem clearFlags_latDin (s : State) : (clearFlags s).latDin = s.latDin := rfl
@[simp] theorem clearFlags_latKey (s : State) : (clearFlags s).latKey = s.latKey := rfl
@[simp] theorem clearFlags_latAux (s : State) : (clearFlags s).latAux = s.latAux := rfl
@[simp] theorem clearFlags_program (s : State) : (clearFlags s).program = s.program := rfl
@[simp] theorem clearFlags_vars (s : State) : (clearFlags s).vars = s.vars := rfl
@[simp] theorem clearFlags_waited (s : State) : (clearFlags s).waited = s.waited := rfl
@[simp] theorem clearFlags_accepted (s : State) : (clearFlags s).accepted = s.accepted := rfl
@[simp] theorem clearFlags_drawn (s : State) : (clearFlags s).drawn = s.drawn := rfl

@[simp] theorem latchCommand_din (i : Instr) (s : State) : (latchCommand i s).din = s.din := rfl
@[simp] theorem latchCommand_key (i : Instr) (s : State) : (latchCommand i s).key = s.key := rfl
@[simp] theorem latchCommand_aux (i : Instr) (s : State) : (latchCommand i s).aux = s.aux := rfl
@[simp] theorem latchCommand_dout (i : Instr) (s : State) : (latchCommand i s).dout = s.dout := rfl
@[simp] theorem latchCommand_rk (i : Instr) (s : State) : (latchCommand i s).rk = s.rk := rfl
@[simp] theorem latchCommand_status (i : Instr) (s : State) : (latchCommand i s).status = flagsBusy s.status := rfl
@[simp] theorem latchCommand_latCmd (i : Instr) (s : State) : (latchCommand i s).latCmd = latFields i := rfl
@[simp] theorem latchCommand_latDin (i : Instr) (s : State) : (latchCommand i s).latDin = s.din := rfl
@[simp] theorem latchCommand_latKey (i : Instr) (s : State) : (latchCommand i s).latKey = s.key := rfl
@[simp] theorem latchCommand_latAux (i : Instr) (s : State) : (latchCommand i s).latAux = s.aux := rfl
@[simp] theorem latchCommand_program (i : Instr) (s : State) : (latchCommand i s).program = s.program := rfl
@[simp] theorem latchCommand_vars (i : Instr) (s : State) : (latchCommand i s).vars = s.vars := rfl
@[simp] theorem latchCommand_waited (i : Instr) (s : State) : (latchCommand i s).waited = 0 := rfl
@[simp] theorem latchCommand_accepted (i : Instr) (s : State) : (latchCommand i s).accepted = s.accepted + 1 := rfl
@[simp] theorem latchCommand_drawn (i : Instr) (s : State) : (latchCommand i s).drawn = s.drawn := rfl

@[simp] theorem overrun_din (s : State) : (overrun s).din = s.din := rfl
@[simp] theorem overrun_key (s : State) : (overrun s).key = s.key := rfl
@[simp] theorem overrun_aux (s : State) : (overrun s).aux = s.aux := rfl
@[simp] theorem overrun_dout (s : State) : (overrun s).dout = s.dout := rfl
@[simp] theorem overrun_rk (s : State) : (overrun s).rk = s.rk := rfl
@[simp] theorem overrun_status (s : State) : (overrun s).status = flagsOverrun s.status := rfl
@[simp] theorem overrun_latCmd (s : State) : (overrun s).latCmd = s.latCmd := rfl
@[simp] theorem overrun_latDin (s : State) : (overrun s).latDin = s.latDin := rfl
@[simp] theorem overrun_latKey (s : State) : (overrun s).latKey = s.latKey := rfl
@[simp] theorem overrun_latAux (s : State) : (overrun s).latAux = s.latAux := rfl
@[simp] theorem overrun_program (s : State) : (overrun s).program = s.program := rfl
@[simp] theorem overrun_vars (s : State) : (overrun s).vars = s.vars := rfl
@[simp] theorem overrun_waited (s : State) : (overrun s).waited = s.waited := rfl
@[simp] theorem overrun_accepted (s : State) : (overrun s).accepted = s.accepted := rfl
@[simp] theorem overrun_drawn (s : State) : (overrun s).drawn = s.drawn := rfl

@[simp] theorem completeDout_din (v : Word) (s : State) : (completeDout v s).din = s.din := rfl
@[simp] theorem completeDout_key (v : Word) (s : State) : (completeDout v s).key = s.key := rfl
@[simp] theorem completeDout_aux (v : Word) (s : State) : (completeDout v s).aux = s.aux := rfl
@[simp] theorem completeDout_dout (v : Word) (s : State) : (completeDout v s).dout = v := rfl
@[simp] theorem completeDout_rk (v : Word) (s : State) : (completeDout v s).rk = s.rk := rfl
@[simp] theorem completeDout_status (v : Word) (s : State) : (completeDout v s).status = flagsComplete s.status := rfl
@[simp] theorem completeDout_latCmd (v : Word) (s : State) : (completeDout v s).latCmd = s.latCmd := rfl
@[simp] theorem completeDout_latDin (v : Word) (s : State) : (completeDout v s).latDin = s.latDin := rfl
@[simp] theorem completeDout_latKey (v : Word) (s : State) : (completeDout v s).latKey = s.latKey := rfl
@[simp] theorem completeDout_latAux (v : Word) (s : State) : (completeDout v s).latAux = s.latAux := rfl
@[simp] theorem completeDout_program (v : Word) (s : State) : (completeDout v s).program = s.program := rfl
@[simp] theorem completeDout_vars (v : Word) (s : State) : (completeDout v s).vars = s.vars := rfl
@[simp] theorem completeDout_waited (v : Word) (s : State) : (completeDout v s).waited = s.waited := rfl
@[simp] theorem completeDout_accepted (v : Word) (s : State) : (completeDout v s).accepted = s.accepted := rfl
@[simp] theorem completeDout_drawn (v : Word) (s : State) : (completeDout v s).drawn = s.drawn := rfl

@[simp] theorem completeRk_din (ks : Vector Word 16) (s : State) : (completeRk ks s).din = s.din := rfl
@[simp] theorem completeRk_key (ks : Vector Word 16) (s : State) : (completeRk ks s).key = s.key := rfl
@[simp] theorem completeRk_aux (ks : Vector Word 16) (s : State) : (completeRk ks s).aux = s.aux := rfl
@[simp] theorem completeRk_dout (ks : Vector Word 16) (s : State) : (completeRk ks s).dout = s.dout := rfl
@[simp] theorem completeRk_rk (ks : Vector Word 16) (s : State) : (completeRk ks s).rk = ks := rfl
@[simp] theorem completeRk_status (ks : Vector Word 16) (s : State) : (completeRk ks s).status = flagsComplete s.status := rfl
@[simp] theorem completeRk_latCmd (ks : Vector Word 16) (s : State) : (completeRk ks s).latCmd = s.latCmd := rfl
@[simp] theorem completeRk_latDin (ks : Vector Word 16) (s : State) : (completeRk ks s).latDin = s.latDin := rfl
@[simp] theorem completeRk_latKey (ks : Vector Word 16) (s : State) : (completeRk ks s).latKey = s.latKey := rfl
@[simp] theorem completeRk_latAux (ks : Vector Word 16) (s : State) : (completeRk ks s).latAux = s.latAux := rfl
@[simp] theorem completeRk_program (ks : Vector Word 16) (s : State) : (completeRk ks s).program = s.program := rfl
@[simp] theorem completeRk_vars (ks : Vector Word 16) (s : State) : (completeRk ks s).vars = s.vars := rfl
@[simp] theorem completeRk_waited (ks : Vector Word 16) (s : State) : (completeRk ks s).waited = s.waited := rfl
@[simp] theorem completeRk_accepted (ks : Vector Word 16) (s : State) : (completeRk ks s).accepted = s.accepted := rfl
@[simp] theorem completeRk_drawn (ks : Vector Word 16) (s : State) : (completeRk ks s).drawn = s.drawn := rfl

@[simp] theorem resetCore_din (s : State) : (resetCore s).din = State.reset.din := rfl
@[simp] theorem resetCore_key (s : State) : (resetCore s).key = State.reset.key := rfl
@[simp] theorem resetCore_aux (s : State) : (resetCore s).aux = State.reset.aux := rfl
@[simp] theorem resetCore_dout (s : State) : (resetCore s).dout = State.reset.dout := rfl
@[simp] theorem resetCore_rk (s : State) : (resetCore s).rk = State.reset.rk := rfl
@[simp] theorem resetCore_status (s : State) : (resetCore s).status = State.reset.status := rfl
@[simp] theorem resetCore_latCmd (s : State) : (resetCore s).latCmd = State.reset.latCmd := rfl
@[simp] theorem resetCore_latDin (s : State) : (resetCore s).latDin = State.reset.latDin := rfl
@[simp] theorem resetCore_latKey (s : State) : (resetCore s).latKey = State.reset.latKey := rfl
@[simp] theorem resetCore_latAux (s : State) : (resetCore s).latAux = State.reset.latAux := rfl
@[simp] theorem resetCore_program (s : State) : (resetCore s).program = s.program := rfl
@[simp] theorem resetCore_vars (s : State) : (resetCore s).vars = s.vars := rfl
@[simp] theorem resetCore_waited (s : State) : (resetCore s).waited = s.waited := rfl
@[simp] theorem resetCore_accepted (s : State) : (resetCore s).accepted = s.accepted := rfl
@[simp] theorem resetCore_drawn (s : State) : (resetCore s).drawn = s.drawn := rfl

@[simp] theorem takeLine_din (l : List HostLine) (s : State) : (takeLine l s).din = s.din := rfl
@[simp] theorem takeLine_key (l : List HostLine) (s : State) : (takeLine l s).key = s.key := rfl
@[simp] theorem takeLine_aux (l : List HostLine) (s : State) : (takeLine l s).aux = s.aux := rfl
@[simp] theorem takeLine_dout (l : List HostLine) (s : State) : (takeLine l s).dout = s.dout := rfl
@[simp] theorem takeLine_rk (l : List HostLine) (s : State) : (takeLine l s).rk = s.rk := rfl
@[simp] theorem takeLine_status (l : List HostLine) (s : State) : (takeLine l s).status = s.status := rfl
@[simp] theorem takeLine_latCmd (l : List HostLine) (s : State) : (takeLine l s).latCmd = s.latCmd := rfl
@[simp] theorem takeLine_latDin (l : List HostLine) (s : State) : (takeLine l s).latDin = s.latDin := rfl
@[simp] theorem takeLine_latKey (l : List HostLine) (s : State) : (takeLine l s).latKey = s.latKey := rfl
@[simp] theorem takeLine_latAux (l : List HostLine) (s : State) : (takeLine l s).latAux = s.latAux := rfl
@[simp] theorem takeLine_program (l : List HostLine) (s : State) : (takeLine l s).program = l := rfl
@[simp] theorem takeLine_vars (l : List HostLine) (s : State) : (takeLine l s).vars = s.vars := rfl
@[simp] theorem takeLine_waited (l : List HostLine) (s : State) : (takeLine l s).waited = s.waited + 1 := rfl
@[simp] theorem takeLine_accepted (l : List HostLine) (s : State) : (takeLine l s).accepted = s.accepted := rfl
@[simp] theorem takeLine_drawn (l : List HostLine) (s : State) : (takeLine l s).drawn = s.drawn := rfl

@[simp] theorem withRequest_din (w : Word) (s : State) : (withRequest w s).din = s.din := rfl
@[simp] theorem withRequest_key (w : Word) (s : State) : (withRequest w s).key = s.key := rfl
@[simp] theorem withRequest_aux (w : Word) (s : State) : (withRequest w s).aux = s.aux := rfl
@[simp] theorem withRequest_dout (w : Word) (s : State) : (withRequest w s).dout = s.dout := rfl
@[simp] theorem withRequest_rk (w : Word) (s : State) : (withRequest w s).rk = s.rk := rfl
@[simp] theorem withRequest_status (w : Word) (s : State) : (withRequest w s).status = { s.status with busy := false } := rfl
@[simp] theorem withRequest_latCmd (w : Word) (s : State) : (withRequest w s).latCmd = s.latCmd := rfl
@[simp] theorem withRequest_latDin (w : Word) (s : State) : (withRequest w s).latDin = s.latDin := rfl
@[simp] theorem withRequest_latKey (w : Word) (s : State) : (withRequest w s).latKey = s.latKey := rfl
@[simp] theorem withRequest_latAux (w : Word) (s : State) : (withRequest w s).latAux = s.latAux := rfl
@[simp] theorem withRequest_program (w : Word) (s : State) : (withRequest w s).program = .wr 0 (.lit w) :: s.program := rfl
@[simp] theorem withRequest_vars (w : Word) (s : State) : (withRequest w s).vars = s.vars := rfl
@[simp] theorem withRequest_waited (w : Word) (s : State) : (withRequest w s).waited = s.waited := rfl
@[simp] theorem withRequest_accepted (w : Word) (s : State) : (withRequest w s).accepted = s.accepted := rfl
@[simp] theorem withRequest_drawn (w : Word) (s : State) : (withRequest w s).drawn = s.drawn := rfl

@[simp] theorem flagsCleared_busy (f : Status) : (flagsCleared f).busy = f.busy := rfl
@[simp] theorem flagsCleared_done (f : Status) : (flagsCleared f).done = false := rfl
@[simp] theorem flagsCleared_err (f : Status) : (flagsCleared f).err = false := rfl
@[simp] theorem flagsCleared_ovr (f : Status) : (flagsCleared f).ovr = false := rfl
@[simp] theorem flagsCleared_errcode (f : Status) : (flagsCleared f).errcode = 0 := rfl

@[simp] theorem flagsError_busy (e : ErrKind) (f : Status) : (flagsError e f).busy = f.busy := rfl
@[simp] theorem flagsError_done (e : ErrKind) (f : Status) : (flagsError e f).done = true := rfl
@[simp] theorem flagsError_err (e : ErrKind) (f : Status) : (flagsError e f).err = true := rfl
@[simp] theorem flagsError_ovr (e : ErrKind) (f : Status) : (flagsError e f).ovr = f.ovr := rfl
@[simp] theorem flagsError_errcode (e : ErrKind) (f : Status) : (flagsError e f).errcode = errCode e := rfl

@[simp] theorem flagsBusy_busy (f : Status) : (flagsBusy f).busy = true := rfl
@[simp] theorem flagsBusy_done (f : Status) : (flagsBusy f).done = f.done := rfl
@[simp] theorem flagsBusy_err (f : Status) : (flagsBusy f).err = f.err := rfl
@[simp] theorem flagsBusy_ovr (f : Status) : (flagsBusy f).ovr = f.ovr := rfl
@[simp] theorem flagsBusy_errcode (f : Status) : (flagsBusy f).errcode = f.errcode := rfl

@[simp] theorem flagsComplete_busy (f : Status) : (flagsComplete f).busy = false := rfl
@[simp] theorem flagsComplete_done (f : Status) : (flagsComplete f).done = true := rfl
@[simp] theorem flagsComplete_err (f : Status) : (flagsComplete f).err = f.err := rfl
@[simp] theorem flagsComplete_ovr (f : Status) : (flagsComplete f).ovr = f.ovr := rfl
@[simp] theorem flagsComplete_errcode (f : Status) : (flagsComplete f).errcode = f.errcode := rfl

@[simp] theorem flagsOverrun_busy (f : Status) : (flagsOverrun f).busy = f.busy := rfl
@[simp] theorem flagsOverrun_done (f : Status) : (flagsOverrun f).done = f.done := rfl
@[simp] theorem flagsOverrun_err (f : Status) : (flagsOverrun f).err = f.err := rfl
@[simp] theorem flagsOverrun_ovr (f : Status) : (flagsOverrun f).ovr = true := rfl
@[simp] theorem flagsOverrun_errcode (f : Status) : (flagsOverrun f).errcode = f.errcode := rfl

/-- A variable assignment changes the host's variables only. -/
theorem assign_eq (x : Option Nat) (v : Word) (s : State) : assign x v s = { s with vars := (assign x v s).vars } := by
  cases x <;> rfl

@[simp] theorem assign_din (x : Option Nat) (v : Word) (s : State) : (assign x v s).din = s.din := by cases x <;> rfl
@[simp] theorem assign_key (x : Option Nat) (v : Word) (s : State) : (assign x v s).key = s.key := by cases x <;> rfl
@[simp] theorem assign_aux (x : Option Nat) (v : Word) (s : State) : (assign x v s).aux = s.aux := by cases x <;> rfl
@[simp] theorem assign_dout (x : Option Nat) (v : Word) (s : State) : (assign x v s).dout = s.dout := by cases x <;> rfl
@[simp] theorem assign_rk (x : Option Nat) (v : Word) (s : State) : (assign x v s).rk = s.rk := by cases x <;> rfl
@[simp] theorem assign_status (x : Option Nat) (v : Word) (s : State) : (assign x v s).status = s.status := by cases x <;> rfl
@[simp] theorem assign_latCmd (x : Option Nat) (v : Word) (s : State) : (assign x v s).latCmd = s.latCmd := by cases x <;> rfl
@[simp] theorem assign_latDin (x : Option Nat) (v : Word) (s : State) : (assign x v s).latDin = s.latDin := by cases x <;> rfl
@[simp] theorem assign_latKey (x : Option Nat) (v : Word) (s : State) : (assign x v s).latKey = s.latKey := by cases x <;> rfl
@[simp] theorem assign_latAux (x : Option Nat) (v : Word) (s : State) : (assign x v s).latAux = s.latAux := by cases x <;> rfl
@[simp] theorem assign_program (x : Option Nat) (v : Word) (s : State) : (assign x v s).program = s.program := by cases x <;> rfl
@[simp] theorem assign_waited (x : Option Nat) (v : Word) (s : State) : (assign x v s).waited = s.waited := by cases x <;> rfl
@[simp] theorem assign_accepted (x : Option Nat) (v : Word) (s : State) : (assign x v s).accepted = s.accepted := by cases x <;> rfl
@[simp] theorem assign_drawn (x : Option Nat) (v : Word) (s : State) : (assign x v s).drawn = s.drawn := by cases x <;> rfl

end Sys2Proof.Machine
end

