-- ==== Sys2Proof/Laws/Vars.lean ====
section
/-! SUPPORT. The host's variables: assignment keeps the canonical form, reads back, and leaves the other variables alone. -/

namespace Sys2Proof.Machine

/-- Every number in the list is above `x`. -/
def varsAbove (x : Nat) (l : List (Nat × Word)) : Prop := ∀ p ∈ l, x < p.1

theorem varsWf_cons (a : Nat × Word) (l : List (Nat × Word)) :
    varsWf (a :: l) = true ↔ varsAbove a.1 l ∧ varsWf l = true := by
  induction l generalizing a with
  | nil => simp [varsWf, varsAbove]
  | cons b rest ih =>
    simp only [varsWf, Bool.and_eq_true, decide_eq_true_eq, varsAbove, List.forall_mem_cons]
    constructor
    · rintro ⟨hab, hw⟩
      exact ⟨⟨hab, fun p hp => lt_trans hab (((ih b).1 hw).1 p hp)⟩, hw⟩
    · rintro ⟨⟨hab, -⟩, hw⟩
      exact ⟨hab, hw⟩

theorem setVar_above {y x : Nat} (v : Word) (l : List (Nat × Word)) (hx : y < x) (hl : varsAbove y l) :
    varsAbove y (setVar x v l) := by
  induction l with
  | nil => simpa [setVar, varsAbove] using hx
  | cons a rest ih =>
    have ha : y < a.1 := hl a (by simp)
    have hr : varsAbove y rest := fun p hp => hl p (by simp [hp])
    simp only [setVar]
    split
    · rintro p (_ | ⟨_, hp⟩)
      · exact hx
      · exact hl p hp
    · split
      · rintro p (_ | ⟨_, hp⟩)
        · exact hx
        · exact hr p hp
      · rintro p (_ | ⟨_, hp⟩)
        · exact ha
        · exact ih hr p hp

/-- An assignment keeps the variables in rising order with no repeats. -/
theorem setVar_wf (x : Nat) (v : Word) (l : List (Nat × Word)) (h : varsWf l = true) :
    varsWf (setVar x v l) = true := by
  induction l with
  | nil => rfl
  | cons a rest ih =>
    obtain ⟨ha, hr⟩ := (varsWf_cons a rest).1 h
    simp only [setVar]
    split
    · rename_i hlt
      refine (varsWf_cons _ _).2 ⟨?_, h⟩
      rintro p (_ | ⟨_, hp⟩)
      · exact hlt
      · exact lt_trans hlt (ha p hp)
    · split
      · rename_i heq
        subst heq
        exact (varsWf_cons _ _).2 ⟨ha, hr⟩
      · exact (varsWf_cons _ _).2 ⟨setVar_above v rest (by omega) ha, ih hr⟩

/-- A variable just assigned reads back. -/
theorem varValue_setVar_same (x : Nat) (v : Word) (l : List (Nat × Word)) : varValue (setVar x v l) x = v := by
  induction l with
  | nil => simp [setVar, varValue]
  | cons a rest ih =>
    simp only [setVar]
    split
    · simp [varValue]
    · split
      · simp [varValue, List.lookup]
      · have hne : (x == a.1) = false := by simp; omega
        simpa [varValue, List.lookup, hne] using ih

/-- An assignment leaves every other variable alone. -/
theorem varValue_setVar_other {x y : Nat} (v : Word) (l : List (Nat × Word)) (h : y ≠ x) :
    varValue (setVar x v l) y = varValue l y := by
  have hyx : (y == x) = false := by simpa using h
  induction l with
  | nil => simp [setVar, varValue, List.lookup, hyx]
  | cons a rest ih =>
    simp only [setVar]
    split
    · simp [varValue, List.lookup, hyx]
    · split
      · rename_i heq
        subst heq
        simp [varValue, List.lookup, hyx]
      · by_cases hy : (y == a.1) = true
        · simp [varValue, List.lookup, hy]
        · simpa [varValue, List.lookup, hy] using ih

/-- `assign` keeps the canonical form of the host's variables. -/
theorem assign_varsWf (x : Option Nat) (v : Word) (s : State) (h : varsWf s.vars = true) :
    varsWf (assign x v s).vars = true := by
  cases x with
  | none => exact h
  | some n => exact setVar_wf n v s.vars h

end Sys2Proof.Machine
end

