-- ==== Sys2Proof/Laws/Ops.lean ====
section
/-! SUPPORT. For each shared operation, once, everything it can do. Provers cite these instead of unfolding the operations. -/

namespace Sys2Proof.Machine

/-- The range check is the well-formedness of Syntax: a row's fields are refused exactly where they are outside R73's ranges. -/
theorem fieldCheck_eq_none (i : Instr) : fieldCheck i = none ↔ i.wf = true := by
  cases i with
  | permute t => simp only [fieldCheck, Instr.wf]; split <;> simp <;> omega
  | rotl n a =>
    simp only [fieldCheck, rotationCheck, Instr.wf]
    split
    · simp; omega
    · split <;> simp <;> omega
  | rotr n a =>
    simp only [fieldCheck, rotationCheck, Instr.wf]
    split
    · simp; omega
    · split <;> simp <;> omega
  | _ => simp [fieldCheck, Instr.wf]

/-- A command passes its check exactly when its fields and its operands do. -/
theorem commandCheck_eq_none (i : Instr) (d a : Word) :
    commandCheck i d a = none ↔ i.wf = true ∧ operandCheck i d a = none := by
  rw [← fieldCheck_eq_none]
  unfold commandCheck
  split <;> simp_all

/-- The latch gives back the command it was loaded with. -/
theorem latInstr_latFields (i : Instr) : latInstr (latFields i) = some i := by
  cases i <;> rfl

/-- What an acceptance does: the first error of the command, or the latch. -/
theorem accept_cases (i : Instr) (s : State) :
    (∃ e, commandCheck i s.din s.aux = some e ∧ accept i s = raiseError e (clearFlags s)) ∨
      (commandCheck i s.din s.aux = none ∧ accept i s = latchCommand i (clearFlags s)) := by
  unfold accept
  split
  · exact .inl ⟨_, ‹_›, rfl⟩
  · exact .inr ⟨‹_›, rfl⟩

/-- While BUSY = 0 a command's meaning is its acceptance. -/
theorem runCommand_idle {i : Instr} {f : State → State} {s : State} (h : s.status.busy = false) :
    runCommand i f s = .next (accept i s) := by
  simp [runCommand, h]

/-- While BUSY = 1 and the latch holds the command checked, its meaning is its effect. -/
theorem runCommand_busy {i : Instr} {f : State → State} {s : State} (h : s.status.busy = true)
    (hl : latInstr s.latCmd = some i) (hc : commandCheck i s.latDin s.latAux = none) :
    runCommand i f s = .next (f s) := by
  simp [runCommand, h, hl, hc]

/-- Every way a command's meaning answers a next state. -/
theorem runCommand_next {i : Instr} {f : State → State} {s t : State} (h : runCommand i f s = .next t) :
    (s.status.busy = false ∧ t = accept i s) ∨
      (s.status.busy = true ∧ latInstr s.latCmd = some i ∧ commandCheck i s.latDin s.latAux = none ∧ t = f s) := by
  unfold runCommand at h
  split at h
  · rename_i hb
    split at h
    · rename_i hc
      cases h
      exact .inr ⟨hb, hc.1, hc.2, rfl⟩
    · cases h
  · cases h
    rename_i hb
    exact .inl ⟨by simpa using hb, rfl⟩

/-- The effect of each command at Complete (60_exceptions.md R165). -/
def completed (i : Instr) (s : State) : State :=
  match i with
  | .encrypt => completeDout (encrypt s.latDin s.latKey) s
  | .keysched => completeRk (rkOfKey s.latKey) s
  | .round => completeDout (feistelRound s.latDin (s.latAux.extractLsb' 0 48)) s
  | .sbox => completeDout ((sboxBank (s.latDin.setWidth 48)).setWidth 64) s
  | .permute t => completeDout (permuteSel t s.latDin) s
  | .rotl n a => completeDout (rotL s.latDin n.toNat a.toNat) s
  | .rotr n a => completeDout (rotR s.latDin n.toNat a.toNat) s

/-- Every command's meaning is the two halves over its own effect. -/
theorem exec_eq_runCommand (i : Instr) (s : State) : exec i s = runCommand i (fun _ => completed i s) s := by
  cases i <;> rfl

/-- A Complete step writes DOUT or RK and the flags, nothing else. -/
theorem completed_cases (i : Instr) (s : State) :
    (i = .keysched ∧ completed i s = completeRk (rkOfKey s.latKey) s) ∨
      (i ≠ .keysched ∧ ∃ v, completed i s = completeDout v s) := by
  cases i
  case keysched => exact .inl ⟨rfl, rfl⟩
  all_goals exact .inr ⟨nofun, _, rfl⟩

/-- Complete leaves BUSY 0 and DONE 1 and the other flags. -/
theorem completed_status (i : Instr) (s : State) : (completed i s).status = flagsComplete s.status := by
  cases i <;> rfl

/-- The latch holds KEYSCHED exactly where its OP is 2. -/
theorem latInstr_keysched {i : Instr} {c : LatCmd} (h : latInstr c = some i) : i = .keysched ↔ c.op = 2 := by
  unfold latInstr at h
  split_ifs at h <;> cases h <;> simp_all

/-- RK[i] after KEYSCHED is K[i], zero-extended. -/
theorem rkOfKey_get (k : Word) (i : Fin 16) : (rkOfKey k).get i = ((keySchedule k).getD i.val 0).setWidth 64 := by
  have := keySchedule_length k
  simp [rkOfKey, Vector.get, List.getD, this]
  rfl

/-- The codes of the errors a request can raise. -/
theorem errCode_range {e : ErrKind} (h : e ≠ .invalidTable) : 1 ≤ (errCode e).toNat ∧ (errCode e).toNat ≤ 5 := by
  cases e <;> simp_all [errCode]

/-- INVALID_TABLE is never raised (40_primitives.md R116). -/
theorem commandCheck_ne_invalidTable (i : Instr) (d a : Word) : commandCheck i d a ≠ some .invalidTable := by
  intro h
  unfold commandCheck at h
  split at h
  · rename_i hf
    cases h
    cases i <;> simp [fieldCheck, rotationCheck] at hf
    all_goals split at hf <;> simp at hf
  · cases i <;> simp [operandCheck, widthCheck] at h

/-- Every way `exec` answers a next state. -/
theorem exec_next {i : Instr} {s t : State} (h : exec i s = .next t) :
    (s.status.busy = false ∧ t = accept i s) ∨
      (s.status.busy = true ∧ latInstr s.latCmd = some i ∧ commandCheck i s.latDin s.latAux = none ∧
        t = completed i s) := by
  rw [exec_eq_runCommand] at h
  have h' := runCommand_next h
  exact h'

/-- A request always answers a next state: dropped, ended in ILLEGAL_CMD, or accepted as the command its word selects. -/
theorem commandRequest_cases (w : Word) (s : State) :
    (s.status.busy = true ∧ commandRequest w s = .next (overrun s)) ∨
      (s.status.busy = false ∧ decodeRow w = none ∧
        commandRequest w s = .next (raiseError .illegalCmd (clearFlags s))) ∨
      (s.status.busy = false ∧ ∃ i, decodeRow w = some i ∧ commandRequest w s = .next (accept i s)) := by
  unfold commandRequest
  cases hb : s.status.busy
  · cases hd : decodeRow w with
    | none => simp
    | some i => simp [exec_eq_runCommand, runCommand_idle hb]
  · simp

/-- What a host write does at each register. -/
theorem hostWrite_cases (idx : BitVec 5) (v : Word) (s : State) :
    (regOf idx = .cmd ∧ hostWrite idx v s = commandRequest v s) ∨
      (regOf idx = .din ∧ hostWrite idx v s = .next { s with din := v }) ∨
      (regOf idx = .key ∧ hostWrite idx v s = .next { s with key := v }) ∨
      (regOf idx = .aux ∧ hostWrite idx v s = .next { s with aux := v }) ∨
      ((regOf idx = .status ∨ regOf idx = .dout ∨ regOf idx = .reserved ∨ ∃ i, regOf idx = .rk i) ∧
        hostWrite idx v s = .next s) := by
  unfold hostWrite
  cases h : regOf idx <;> simp

/-- A host write always answers a next state. -/
theorem hostWrite_total (idx : BitVec 5) (v : Word) (s : State) : ∃ t, hostWrite idx v s = .next t := by
  rcases hostWrite_cases idx v s with ⟨-, h⟩ | ⟨-, h⟩ | ⟨-, h⟩ | ⟨-, h⟩ | ⟨-, h⟩
  · rcases commandRequest_cases v s with ⟨-, h'⟩ | ⟨-, -, h'⟩ | ⟨-, i, -, h'⟩ <;> exact ⟨_, h.trans h'⟩
  all_goals exact ⟨_, h⟩

/-- A host read changes nothing of the state but the count of draws. -/
theorem hostRead_state (idx : BitVec 5) (s : State) :
    (hostRead idx s).2 = s ∨ (hostRead idx s).2 = { s with drawn := s.drawn + 1 } := by
  unfold hostRead
  split
  · exact .inr rfl
  · exact .inl rfl

/-- The engine's step is the latched command's meaning. -/
theorem engineComplete_next {s t : State} (hb : s.status.busy = true) (h : engineComplete s = .next t) :
    ∃ i, latInstr s.latCmd = some i ∧ commandCheck i s.latDin s.latAux = none ∧ t = completed i s := by
  unfold engineComplete at h
  split at h
  · rename_i i hi
    rcases exec_next h with ⟨hf, -⟩ | ⟨-, -, hc, rfl⟩
    · simp [hb] at hf
    · exact ⟨i, hi, hc, rfl⟩
  · cases h

/-- Everything a step can do where it answers a next state: the engine's Complete, an idle host, or a host line. -/
theorem step_next {s t : State} (h : step s = .next t) :
    (s.status.busy = true ∧ engineTurn s = true ∧
        ∃ i, latInstr s.latCmd = some i ∧ commandCheck i s.latDin s.latAux = none ∧ t = completed i s) ∨
      (engineTurn s = false ∧ s.program = [] ∧ t = s) ∨
      (engineTurn s = false ∧ ∃ l rest, s.program = l :: rest ∧ hostLine l (takeLine rest s) = .next t) := by
  simp only [step, oneStep] at h
  split at h
  · rename_i he
    have hb : s.status.busy = true := by simp [engineTurn] at he; exact he.1
    exact .inl ⟨hb, he, engineComplete_next hb h⟩
  · rename_i he
    have he' : engineTurn s = false := by simpa using he
    unfold hostStep at h
    split at h
    · rename_i hp
      cases h
      exact .inr (.inl ⟨he', hp, rfl⟩)
    · rename_i l rest hp
      exact .inr (.inr ⟨he', l, rest, hp, h⟩)

/-- A step of the host is its next line, where BUSY = 0. -/
theorem step_idle {s : State} {l : HostLine} {rest : List HostLine} (hb : s.status.busy = false)
    (hp : s.program = l :: rest) : step s = hostLine l (takeLine rest s) := by
  simp [step, oneStep, engineTurn, hostStep, hb, hp]

end Sys2Proof.Machine
end

