-- ==== Sys2Proof/Laws/PerInstr.lean ====
section
/-! SUPPORT. Statements for all commands, one lemma per constructor. -/

namespace Sys2Proof.Laws.LatchCodec

open Sys2Proof.Machine

/-- The latch fields of a command (60_exceptions.md R160) hold all of it: the command they name (R165) is the command latched. -/
def Statement (i : Instr) : Prop := latInstr (latFields i) = some i

theorem encrypt : Statement .encrypt := rfl

theorem keysched : Statement .keysched := rfl

theorem round : Statement .round := rfl

theorem sbox : Statement .sbox := rfl

theorem permute (tsel : BitVec 3) : Statement (.permute tsel) := rfl

theorem rotl (width : BitVec 7) (amt : BitVec 6) : Statement (.rotl width amt) := rfl

theorem rotr (width : BitVec 7) (amt : BitVec 6) : Statement (.rotr width amt) := rfl

end Sys2Proof.Laws.LatchCodec
end

