-- ==== Sys2Proof/Laws/Port.lean ====
section
/-! SUPPORT. The indices of the port: which index names which register, and host writes and reads at CMD and STATUS. -/

namespace Sys2Proof.Machine

/-- A register's index names that register (20_memory.md R53). -/
theorem regOf_regIndex (r : Reg) : regOf (regIndex r) = r := by
  cases r with
  | rk i => revert i; decide +kernel
  | _ => decide

/-- CMD is at index 0 and nowhere else. -/
theorem regOf_eq_cmd (idx : BitVec 5) : regOf idx = .cmd ↔ idx = 0 := by
  revert idx; decide +kernel

/-- STATUS is at index 1 and nowhere else. -/
theorem regOf_eq_status (idx : BitVec 5) : regOf idx = .status ↔ idx = 1 := by
  revert idx; decide +kernel

/-- DIN is at index 2 and nowhere else. -/
theorem regOf_eq_din (idx : BitVec 5) : regOf idx = .din ↔ idx = 2 := by
  revert idx; decide +kernel

/-- KEY is at index 3 and nowhere else. -/
theorem regOf_eq_key (idx : BitVec 5) : regOf idx = .key ↔ idx = 3 := by
  revert idx; decide +kernel

/-- AUX is at index 4 and nowhere else. -/
theorem regOf_eq_aux (idx : BitVec 5) : regOf idx = .aux ↔ idx = 4 := by
  revert idx; decide +kernel

/-- DOUT is at index 5 and nowhere else. -/
theorem regOf_eq_dout (idx : BitVec 5) : regOf idx = .dout ↔ idx = 5 := by
  revert idx; decide +kernel

/-- The reserved indices are 6 to 15. -/
theorem regOf_eq_reserved (idx : BitVec 5) : regOf idx = .reserved ↔ 6 ≤ idx.toNat ∧ idx.toNat < 16 := by
  revert idx; decide +kernel

/-- RK[i] is at index 16 + i and nowhere else. -/
theorem regOf_eq_rk (idx : BitVec 5) (i : Fin 16) : regOf idx = .rk i ↔ idx.toNat = 16 + i.val := by
  revert idx i; decide +kernel

/-- A host write at index 0 is a command request. -/
theorem hostWrite_cmd (v : Word) (s : State) : hostWrite 0 v s = commandRequest v s := rfl

/-- The same, with the index as simp writes it. -/
theorem hostWrite_cmd' (v : Word) (s : State) : hostWrite 0#5 v s = commandRequest v s := rfl

/-- A read of STATUS is exact and changes nothing. -/
theorem hostRead_status (s : State) : hostRead 1 s = (statusWord s.status, s) := rfl

/-- Bit 0 of the STATUS word is BUSY (10_state.md R29). -/
theorem statusWord_busy (f : Status) : (statusWord f).getLsbD 0 = f.busy := by
  obtain ⟨b, d, e, o, c⟩ := f
  revert c; revert b d e o; decide

/-- One round of WAIT: the variable gets the STATUS word, and the line stays while BUSY = 1; nothing of the core changes. -/
theorem pollStatus_eq (x : Nat) (s : State) :
    pollStatus x s =
      { s with
        vars := setVar x (statusWord s.status) s.vars
        program := if s.status.busy = true then .wait x :: s.program else s.program } := by
  simp only [pollStatus, hostRead_status, assign, statusWord_busy]

/-- While BUSY = 0 every read is exact and changes nothing. -/
theorem hostRead_idle {s : State} (h : s.status.busy = false) (idx : BitVec 5) :
    hostRead idx s = (regValue (regOf idx) s, s) := by
  have : inFlightTarget (regOf idx) s = false := by cases hr : regOf idx <;> simp [inFlightTarget, h]
  simp [hostRead, this]

/-- What a host write does, by its index. -/
theorem hostWrite_next {idx : BitVec 5} {v : Word} {s t : State} (h : hostWrite idx v s = .next t) :
    (idx = 0 ∧ commandRequest v s = .next t) ∨ (idx = 2 ∧ t = { s with din := v }) ∨
      (idx = 3 ∧ t = { s with key := v }) ∨ (idx = 4 ∧ t = { s with aux := v }) ∨ t = s := by
  rcases hostWrite_cases idx v s with ⟨hr, e⟩ | ⟨hr, e⟩ | ⟨hr, e⟩ | ⟨hr, e⟩ | ⟨-, e⟩ <;> rw [e] at h
  · exact .inl ⟨(regOf_eq_cmd _).1 hr, h⟩
  · cases h; exact .inr (.inl ⟨(regOf_eq_din _).1 hr, rfl⟩)
  · cases h; exact .inr (.inr (.inl ⟨(regOf_eq_key _).1 hr, rfl⟩))
  · cases h; exact .inr (.inr (.inr (.inl ⟨(regOf_eq_aux _).1 hr, rfl⟩)))
  · cases h; exact .inr (.inr (.inr (.inr rfl)))

/-- What a request does to the state: an overrun, an error ending, or the latch. -/
theorem commandRequest_next {w : Word} {s t : State} (h : commandRequest w s = .next t) :
    (s.status.busy = true ∧ t = overrun s) ∨
      (s.status.busy = false ∧
        ((∃ e, e ≠ .invalidTable ∧ t = raiseError e (clearFlags s)) ∨
          ∃ i, commandCheck i s.din s.aux = none ∧ t = latchCommand i (clearFlags s))) := by
  rcases commandRequest_cases w s with ⟨hb, hr⟩ | ⟨hb, -, hr⟩ | ⟨hb, i, -, hr⟩ <;> rw [hr] at h <;> cases h
  · exact .inl ⟨hb, rfl⟩
  · exact .inr ⟨hb, .inl ⟨_, by simp, rfl⟩⟩
  · rcases accept_cases i s with ⟨e, hc, ha⟩ | ⟨hc, ha⟩
    · exact .inr ⟨hb, .inl ⟨e, fun he => commandCheck_ne_invalidTable i _ _ (he ▸ hc), ha⟩⟩
    · exact .inr ⟨hb, .inr ⟨i, hc, ha⟩⟩

/-- A read with its assignment changes the host's variables and the count of draws only. -/
theorem assign_hostRead (idx : BitVec 5) (x : Option Nat) (v : Word) (s : State) :
    ∃ vs d, assign x v (hostRead idx s).2 = { s with vars := vs, drawn := d } ∧
      (varsWf s.vars = true → varsWf vs = true) := by
  rcases hostRead_state idx s with hh | hh <;> rw [hh, assign_eq]
  · exact ⟨_, s.drawn, rfl, assign_varsWf x v s⟩
  · exact ⟨_, s.drawn + 1, rfl, assign_varsWf x v { s with drawn := s.drawn + 1 }⟩

/-- The line writes the register of this index, directly or through the bus adapter. -/
def writesIndex (idx : BitVec 5) (l : HostLine) : Prop :=
  (∃ v, l = .wr idx v) ∨ ∃ addr bytes, l = .busWr addr bytes ∧ busIndex addr bytes.length = .ok idx

/-- Everything a host line can do where it answers a next state: a request, a write of DIN, KEY or AUX, something that
changes the host's own fields only, or Reset. -/
theorem hostLine_next {l : HostLine} {s t : State} (h : hostLine l s = .next t) :
    (∃ w, writesIndex 0 l ∧ commandRequest w s = .next t) ∨
      (∃ v, writesIndex 2 l ∧ t = { s with din := v }) ∨
      (∃ v, writesIndex 3 l ∧ t = { s with key := v }) ∨
      (∃ v, writesIndex 4 l ∧ t = { s with aux := v }) ∨
      (∃ vs p d, t = { s with vars := vs, program := p, drawn := d } ∧ (varsWf s.vars = true → varsWf vs = true)) ∨
      (l = .reset ∧ t = resetCore s) := by
  have write : ∀ {idx v}, writesIndex idx l → hostWrite idx v s = .next t →
      (∃ w, writesIndex 0 l ∧ commandRequest w s = .next t) ∨
        (∃ v, writesIndex 2 l ∧ t = { s with din := v }) ∨
        (∃ v, writesIndex 3 l ∧ t = { s with key := v }) ∨
        (∃ v, writesIndex 4 l ∧ t = { s with aux := v }) ∨ t = s := by
    intro idx v hl hw
    rcases hostWrite_next hw with ⟨rfl, ht⟩ | ⟨rfl, ht⟩ | ⟨rfl, ht⟩ | ⟨rfl, ht⟩ | ht
    · exact .inl ⟨v, hl, ht⟩
    · exact .inr (.inl ⟨v, hl, ht⟩)
    · exact .inr (.inr (.inl ⟨v, hl, ht⟩))
    · exact .inr (.inr (.inr (.inl ⟨v, hl, ht⟩)))
    · exact .inr (.inr (.inr (.inr ht)))
  have same : t = s → ∃ vs p d, t = { s with vars := vs, program := p, drawn := d } ∧
      (varsWf s.vars = true → varsWf vs = true) := fun e => ⟨s.vars, s.program, s.drawn, e, id⟩
  cases l with
  | wr idx v =>
    rcases write (.inl ⟨v, rfl⟩) h with hw | hw | hw | hw | hw
    · exact .inl hw
    · exact .inr (.inl hw)
    · exact .inr (.inr (.inl hw))
    · exact .inr (.inr (.inr (.inl hw)))
    · exact .inr (.inr (.inr (.inr (.inl (same hw)))))
  | rd idx x =>
    cases h
    obtain ⟨vs, d, e, hw⟩ := assign_hostRead idx x (hostRead idx s).1 s
    exact .inr (.inr (.inr (.inr (.inl ⟨vs, s.program, d, e, hw⟩))))
  | wait x =>
    cases h
    obtain ⟨vs, d, e, hw⟩ := assign_hostRead 1 (some x) (hostRead 1 s).1 s
    simp only [pollStatus, e]
    exact .inr (.inr (.inr (.inr (.inl ⟨vs, _, d, rfl, hw⟩))))
  | reset => cases h; exact .inr (.inr (.inr (.inr (.inr ⟨rfl, rfl⟩))))
  | busWr addr bytes =>
    simp only [hostLine] at h
    split at h
    · rename_i idx hi
      rcases write (.inr ⟨addr, bytes, rfl, hi⟩) h with hw | hw | hw | hw | hw
      · exact .inl hw
      · exact .inr (.inl hw)
      · exact .inr (.inr (.inl hw))
      · exact .inr (.inr (.inr (.inl hw)))
      · exact .inr (.inr (.inr (.inr (.inl (same hw)))))
    · cases h
  | busRd addr n x =>
    simp only [hostLine] at h
    split at h
    · rename_i idx _
      cases h
      obtain ⟨vs, d, e, hw⟩ := assign_hostRead idx x (wordOfBytes (bytesOfWord (hostRead idx s).1)) s
      exact .inr (.inr (.inr (.inr (.inl ⟨vs, s.program, d, e, hw⟩))))
    · cases h

/-- A bus access that is no transaction is refused in one of two ways (20_memory.md R56; log 6). -/
theorem busIndex_error {addr n : Nat} {r : Refusal} (h : busIndex addr n = .error r) :
    r = .partialAccess ∨ r = .outsideWindow := by
  unfold busIndex at h
  split at h
  · cases h; exact .inr rfl
  · split at h <;> cases h
    exact .inl rfl

/-- The outcomes of a host line: a next state, or for a line through the bus adapter one of its two refusals; never a fault. -/
theorem hostLine_outcome (l : HostLine) (s : State) :
    (∃ t, hostLine l s = .next t) ∨
      ∃ r, hostLine l s = .refused r ∧ (r = .partialAccess ∨ r = .outsideWindow) ∧
        ((∃ addr bytes, l = .busWr addr bytes) ∨ ∃ addr n x, l = .busRd addr n x) := by
  cases l with
  | wr idx v => exact .inl (hostWrite_total _ _ _)
  | busWr addr bytes =>
    cases hb : busIndex addr bytes.length with
    | ok idx => simpa only [hostLine, hb] using .inl (hostWrite_total _ _ _)
    | error r => exact .inr ⟨r, by simp only [hostLine, hb], busIndex_error hb, .inl ⟨_, _, rfl⟩⟩
  | busRd addr n x =>
    cases hb : busIndex addr n with
    | ok idx => exact .inl ⟨_, by simp only [hostLine, hb]; rfl⟩
    | error r => exact .inr ⟨r, by simp only [hostLine, hb], busIndex_error hb, .inr ⟨_, _, _, rfl⟩⟩
  | _ => exact .inl ⟨_, rfl⟩

end Sys2Proof.Machine
end

