-- ==== Sys2Proof/Laws/Primitives.lean ====
section
/-! SUPPORT. The bits of the pure functions: the permuter, the shifters, the halves of a block. -/

namespace Sys2Proof.Machine

/-- DES bit k of the permuter's output, at register bit m - k, is DES bit `t_k` of the input (40_primitives.md R117). -/
theorem permute_getLsbD {n : Nat} (table : List Nat) (v : BitVec n) {j : Nat} (hj : j < table.length) :
    (permute table.length table v).getLsbD j = desbit v (table.getD (table.length - 1 - j) 0) := by
  have hlt : table.length - 1 - j < table.length := by omega
  simp [permute, hj, List.getD, List.getElem?_eq_getElem hlt]

/-- The same for an output width given as a number. -/
theorem permute_getLsbD_of_length {n : Nat} (m : Nat) (table : List Nat) (v : BitVec n) (hl : table.length = m) {j : Nat}
    (hj : j < m) : (permute m table v).getLsbD j = v.getLsbD (n - table.getD (m - 1 - j) 0) := by
  subst hl
  exact permute_getLsbD table v hj

/-- The left half of `L || R` is L (42_feistel_round.md R141). -/
theorem leftHalf_append (l r : BitVec 32) : leftHalf (l ++ r) = l := by
  apply BitVec.eq_of_getLsbD_eq; intro j hj
  simp only [leftHalf, BitVec.getLsbD_extractLsb', hj, decide_true, Bool.true_and]
  rw [BitVec.getLsbD_append, if_neg (by omega)]; congr 1; omega

/-- The right half of `L || R` is R (42_feistel_round.md R141). -/
theorem rightHalf_append (l r : BitVec 32) : rightHalf (l ++ r) = r := by
  apply BitVec.eq_of_getLsbD_eq; intro j hj
  simp only [rightHalf, BitVec.getLsbD_extractLsb', hj, decide_true, Bool.true_and]
  rw [BitVec.getLsbD_append, if_pos (by omega)]; congr 1; omega

/-- A block is its left half and its right half (42_feistel_round.md R141). -/
theorem halves_append (x : Word) : leftHalf x ++ rightHalf x = x := by
  apply BitVec.eq_of_getLsbD_eq; intro j hj
  rw [BitVec.getLsbD_append]
  simp only [leftHalf, rightHalf, BitVec.getLsbD_extractLsb']
  split
  · simp [*]
  · have h1 : j - 32 < 32 := by omega
    have h2 : 32 + (j - 32) = j := by omega
    simp [h1, h2]

end Sys2Proof.Machine
end

