-- ==== Sys2Proof/Tests/Slice0.lean ====
section
/-! SUPPORT. The model's own tests: words written out from 30_encoding.md, vectors of 95_test_vectors.md, and for every obligation with
hypotheses a concrete case that meets them. -/

namespace Sys2Proof.Tests

open Sys2Proof Sys2Proof.Machine Sys2Proof.Claims

/-- The next state of an outcome. -/
def after (o : Host.Outcome State Fault Refusal) : Option State :=
  match o with
  | .next t => some t
  | .fault _ => none
  | .refused _ => none

/-- An idle core with these operand registers. -/
def idle (d k a : Word) : State := { State.reset with din := d, key := k, aux := a }

/-- A core with the command of latch fields `c` in flight. -/
def flying (c : LatCmd) (d k a : Word) : State :=
  { State.reset with status := ⟨true, false, false, false, 0⟩, latCmd := c, latDin := d, latKey := k, latAux := a }

/-- `s` with a program for its host. -/
def hosting (p : List HostLine) (s : State) : State := { s with program := p }

/-- DOUT of an outcome. -/
def doutOf (o : Host.Outcome State Fault Refusal) : Option Word := (after o).map (·.dout)

/-- The STATUS word of an outcome. -/
def statusOf (o : Host.Outcome State Fault Refusal) : Option Word := (after o).map (fun t => statusWord t.status)

/-! ## Well-formedness -/

/-- TSEL 6 is refused (30_encoding.md R73: 0..5). -/
theorem test_wf_permute_6 : (Instr.permute 6).wf = false := by decide

/-- TSEL 7 is refused. -/
theorem test_wf_permute_7 : (Instr.permute 7).wf = false := by decide

/-- WIDTH 0 is refused (R73: 1..64). -/
theorem test_wf_rotl_width_0 : (Instr.rotl 0 0).wf = false := by decide

/-- WIDTH 65 is refused. -/
theorem test_wf_rotl_width_65 : (Instr.rotl 65 0).wf = false := by decide

/-- AMT = WIDTH is refused (R73: 0..WIDTH-1). -/
theorem test_wf_rotl_amt : (Instr.rotl 28 28).wf = false := by decide

/-- The same checks of ROTR. -/
theorem test_wf_rotr : (Instr.rotr 0 0).wf = false ∧ (Instr.rotr 65 0).wf = false ∧ (Instr.rotr 28 28).wf = false := by decide

/-! ## Decoding, from words written out bit by bit -/

/-- OP 0001. -/
theorem test_decode_encrypt :
    decode 0b0000000000000000000000000000000000000000000000000000000000000001 = .ok .encrypt := by decide

/-- OP 0010. -/
theorem test_decode_keysched :
    decode 0b0000000000000000000000000000000000000000000000000000000000000010 = .ok .keysched := by decide

/-- OP 0011. -/
theorem test_decode_round :
    decode 0b0000000000000000000000000000000000000000000000000000000000000011 = .ok .round := by decide

/-- OP 0100. -/
theorem test_decode_sbox :
    decode 0b0000000000000000000000000000000000000000000000000000000000000100 = .ok .sbox := by decide

/-- TSEL 101 (FP) at 10:8, OP 0101. -/
theorem test_decode_permute :
    decode 0b0000000000000000000000000000000000000000000000000000010100000101 = .ok (.permute 5) := by decide

/-- AMT 100000 (32) at 29:24, WIDTH 1000000 (64) at 22:16, OP 0110. -/
theorem test_decode_rotl :
    decode 0b0000000000000000000000000000000000100000010000000000000000000110 = .ok (.rotl 64 32) := by decide

/-- AMT 000001 (1) at 29:24, WIDTH 0011100 (28) at 22:16, OP 0111. -/
theorem test_decode_rotr :
    decode 0b0000000000000000000000000000000000000001000111000000000000000111 = .ok (.rotr 28 1) := by decide

/-- 95_test_vectors.md V-ERR-1, V-ERR-10 to V-ERR-13: illegal words. -/
theorem test_decode_illegal :
    decode 0x0000000000000000 = .error .illegalCmd ∧ decode 0x0000000000000011 = .error .illegalCmd ∧
    decode 0x0000000000000101 = .error .illegalCmd ∧ decode 0x0000000000000008 = .error .illegalCmd ∧
    decode 0x8000000000000001 = .error .illegalCmd := by decide

/-- The host's reading of a row with short words: the bits above `nbits` are 0. -/
theorem test_decodeTableWord :
    decodeTableWord 64 0x000000003F400007 = some (.rotr 64 63) ∧ decodeTableWord 8 0x3F400007 = some (.rotr 0 0) := by decide

/-! ## The tables -/

/-- Each table has its output width's length and entries in 1..input width (40_primitives.md R116). -/
theorem test_tables_valid :
    ∀ r ∈ permRows, r.2.2.2.length = r.2.2.1 ∧ ∀ t ∈ r.2.2.2, 1 ≤ t ∧ t ≤ r.2.1 := by decide +kernel

/-- PC-1 never selects a parity bit (40_primitives.md R103). -/
theorem test_pc1_no_parity : ∀ k, 1 ≤ k → k ≤ 8 → 8 * k ∉ tablePc1 := by
  intro k h1 h8
  interval_cases k <;> decide

/-- PC-2 never selects bits 9, 18, 22, 25, 35, 38, 43, 54 (40_primitives.md R104). -/
theorem test_pc2_unselected : ∀ t ∈ [9, 18, 22, 25, 35, 38, 43, 54], t ∉ tablePc2 := by decide

/-- The amounts of the shift schedule are sixteen and sum to 28 (40_primitives.md R107). -/
theorem test_shift_schedule : shiftSchedule.length = 16 ∧ shiftSchedule.sum = 28 := by decide

/-- Every row of every S-box holds each of 0..15 once, a property the standard's S-boxes have. -/
theorem test_sbox_rows :
    ∀ i : Fin 8, (sboxOf i).length = 4 ∧ ∀ row ∈ sboxOf i, row.length = 16 ∧ ∀ v : BitVec 4, v ∈ row := by decide +kernel

/-! ## One step of each command -/

/-- V-ENC-6. -/
theorem test_encrypt : doutOf (exec .encrypt (flying ⟨1, 0, 0, 0⟩ 0x0123456789ABCDEF 0 0)) = some 0xA9C1098BCC140714 := by
  decide +kernel

/-- V-ENC-4. -/
theorem test_encrypt_ones :
    doutOf (exec .encrypt (flying ⟨1, 0, 0, 0⟩ 0xFFFFFFFFFFFFFFFF 0xFFFFFFFFFFFFFFFF 0)) = some 0x7359B2163E4EDC58 := by
  decide +kernel

/-- V-KS-2: the sixteen round keys of key 0xAAAAAAAAAAAAAAAA. -/
theorem test_keysched :
    (after (exec .keysched (flying ⟨2, 0, 0, 0⟩ 0 0xAAAAAAAAAAAAAAAA 0))).map (·.rk.toList) =
      some [0x4F6D352AFDAB, 0x4FE52D2E7DAB, 0xCB85AFAE5973, 0xF98AABC7CB72, 0xB1BAAAD58F58, 0xB03ED6D9965C,
        0x747E5459F6AC, 0x46F574387CAD, 0xC6E5753A7CB5, 0xCFC733AB69B3, 0xEF93ABA76B13, 0xBB92CBF70356,
        0x395ADAD583CE, 0x3479DC54B6CD, 0x166D557AB4ED, 0x5E6D556AF4AF] := by decide +kernel

/-- V-RND-2. -/
theorem test_round :
    doutOf (exec .round (flying ⟨3, 0, 0, 0⟩ 0x0123456789ABCDEF 0 0x00001B02EFFC7072)) = some 0x89ABCDEFAFAAF76A := by
  decide +kernel

/-- V-ERR-5: AUX has bit 48 set. -/
theorem test_round_wide : statusOf (exec .round (idle 0 0 0x0001000000000000)) = some 0x506 := by decide +kernel

/-- V-SB-6: group 7 = 000001, row 1, column 0. -/
theorem test_sbox : doutOf (exec .sbox (flying ⟨4, 0, 0, 0⟩ 1 0 0)) = some 0x00000000EFA72C41 := by decide +kernel

/-- V-SB-4: group 0 = 011011, row 1, column 13. -/
theorem test_sbox_row1 : doutOf (exec .sbox (flying ⟨4, 0, 0, 0⟩ 0x00006C0000000000 0 0)) = some 0x000000005FA72C4D := by
  decide +kernel

/-- V-PERM-5: IP moves DES bit 64 to output position 25. -/
theorem test_permute_ip : doutOf (exec (.permute 4) (flying ⟨5, 4, 0, 0⟩ 1 0 0)) = some 0x0000008000000000 := by decide +kernel

/-- V-PERM-17: P on the round-1 trace. -/
theorem test_permute_p :
    doutOf (exec (.permute 3) (flying ⟨5, 3, 0, 0⟩ 0x000000005C82B597 0 0)) = some 0x00000000234AA9BB := by decide +kernel

/-- V-ROT-10: 1000_0001 to 0000_1100. -/
theorem test_rotl : doutOf (exec (.rotl 8 3) (flying ⟨6, 0, 8, 3⟩ 0x81 0 0)) = some 0x0C := by decide +kernel

/-- V-ERR-3: INVALID_SHIFT before WIDTH_ERROR. -/
theorem test_rotl_shift : statusOf (exec (.rotl 28 28) (idle 0xFFFFFFFFFFFFFFFF 0 0)) = some 0x406 := by decide +kernel

/-- V-ROT-11: 1000_0001 to 0011_0000. -/
theorem test_rotr : doutOf (exec (.rotr 8 3) (flying ⟨7, 0, 8, 3⟩ 0x81 0 0)) = some 0x30 := by decide +kernel

/-- V-ROT-7: ROTR 64, 63. -/
theorem test_rotr_64 :
    doutOf (exec (.rotr 64 63) (flying ⟨7, 0, 64, 63⟩ 0x0123456789ABCDEF 0 0)) = some 0x02468ACF13579BDE := by decide +kernel

/-- STATUS after an accepted command, after a dropped request and after Complete (95_test_vectors.md 2.8). -/
theorem test_status_values :
    statusOf (exec .encrypt (idle 0 0 0)) = some 0x1 ∧ statusOf (hostWrite 0 1 (flying ⟨4, 0, 0, 0⟩ 0 0 0)) = some 0x9 ∧
    statusOf (exec .sbox (flying ⟨4, 0, 0, 0⟩ 0 0 0)) = some 0x2 := by decide +kernel

/-! ## Witnesses: cases that meet the hypotheses of the obligations -/

/-- DecodeInvertsEncode: a well-formed command at the top of its ranges, and its word. -/
theorem witness_DecodeInvertsEncode :
    (Instr.rotl 64 63).wf = true ∧ (Instr.permute 5).wf = true ∧ (Instr.rotr 1 0).wf = true ∧
    decodeRow 0x000000003F400006 = some (.rotl 64 63) ∧ decode 0x000000003F400006 = .ok (.rotl 64 63) := by decide

/-- RowsDoNotOverlap: for each row a word that matches it, with every field bit it uses set; and a word that matches none. -/
theorem witness_RowsDoNotOverlap :
    (codeRows.zip ([0x1, 0x2, 0x3, 0x4, 0x705, 0x3F7F0006, 0x3F7F0007] : List Word)).all (fun p => p.2 &&& p.1.2.1 == p.1.1) = true ∧
    codeRows.all (fun r => (0x8 : Word) &&& r.2.1 != r.1) = true := by decide

/-- IllegalWordsExactly: illegal words at the edges of OP, the reserved bits and the unused fields, on an idle core. -/
theorem witness_IllegalWordsExactly :
    (idle 0 0 0).status.busy = false ∧
    decode 0x0 = .error .illegalCmd ∧ decode 0x8 = .error .illegalCmd ∧ decode 0xF = .error .illegalCmd ∧
    decode 0x10 = .error .illegalCmd ∧ decode 0x8000000000000006 = .error .illegalCmd ∧ decode 0x40000007 = .error .illegalCmd ∧
    decode 0x800006 = .error .illegalCmd ∧ decode 0x0801 = .error .illegalCmd ∧ decode 0x0701 = .error .illegalCmd ∧
    decode 0x0106 = .error .illegalCmd ∧ decode 0x10005 = .error .illegalCmd ∧ decode 0x01000004 = .error .illegalCmd := by decide

/-- StepRunsDecodedCommand: a request on an idle core, an engine's turn, a host's turn, and an idle core with nothing to do. -/
theorem witness_StepRunsDecodedCommand :
    (hosting [.wr 0 (.lit 0x406)] (idle 0 0 0)).status.busy = false ∧ decodeRow 0x406 = none ∧ decodeRow 0x405 = some (.permute 4) ∧
    engineTurn (flying ⟨1, 0, 0, 0⟩ 0 0 0) = true ∧ latInstr (flying ⟨1, 0, 0, 0⟩ 0 0 0).latCmd = some .encrypt ∧
    engineTurn (hosting [.wr 2 (.lit 5)] (idle 0 0 0)) = false ∧ (idle 0 0 0).program = [] := by decide +kernel

/-- PlacedWordRunsNext: words of the first and the last row. -/
theorem witness_PlacedWordRunsNext :
    decodeTableWord 64 0x1 = some .encrypt ∧ decodeTableWord 64 0x3F400007 = some (.rotr 64 63) := by decide

/-- PermuteMovesEachBit: every table of the core meets its range, and k runs over 1 to the table's length. -/
theorem witness_PermuteMovesEachBit : (∀ t ∈ tablePc2, 1 ≤ t ∧ t ≤ 56) ∧ 1 ≤ 1 ∧ 48 ≤ tablePc2.length := by decide

/-- RotLRotates, RotRIsRotLOfTheRest, RotationsUndoEachOther: the smallest and the largest width, with the largest values; an amount
equal to the width. -/
theorem witness_rotations :
    (0 < 1 ∧ (1 : Word).toNat < 2 ^ 1) ∧ (63 < 64 ∧ (0xFFFFFFFFFFFFFFFF : Word).toNat < 2 ^ 64) ∧
    (0 < 63 ∧ (0xFFFFFFFFFFFFFFFF : Word).toNat < 2 ^ 64) ∧
    ((idle 0 0 0).status.busy = false ∧ 1 ≤ (63 : BitVec 7).toNat ∧ (63 : BitVec 7).toNat ≤ 64 ∧
      (63 : BitVec 6).toNat ≥ (63 : BitVec 7).toNat) := by decide

/-- ParityIsNeverChecked, EncryptCompletes, PermuteCompletes: two keys that differ in every parity bit. -/
theorem witness_sameButParity :
    sameButParity 0x123456789ABCDEF0 0x133557799BBDDFF1 ∧ (0x123456789ABCDEF0 : Word) ≠ 0x133557799BBDDFF1 := by
  unfold sameButParity; decide

/-- WeakKeysRepeat: halves of zeros, of ones, and one of each. -/
theorem witness_WeakKeysRepeat :
    (keyHalfC 0 = 0 ∧ keyHalfD 0 = 0) ∧
    (keyHalfC 0xFEFEFEFEFEFEFEFE = BitVec.allOnes 28 ∧ keyHalfD 0xFEFEFEFEFEFEFEFE = BitVec.allOnes 28) ∧
    (keyHalfC 0x1F1F1F1F0E0E0E0E = 0 ∧ keyHalfD 0x1F1F1F1F0E0E0E0E = BitVec.allOnes 28) := by decide +kernel

/-- RoundIsInvertible: two inputs with one output are one input. -/
theorem witness_RoundIsInvertible : feistelRound 0x0123456789ABCDEF 5 = feistelRound 0x0123456789ABCDEF 5 := rfl

/-- RotationsAccumulate: the first and the last round. -/
theorem witness_RotationsAccumulate : 0 < 16 ∧ 15 < 16 := by decide

/-- EncryptCompletes and KeyschedCompletes: an idle core, each command in flight, illegal words with its OP. -/
theorem witness_full_width_commands :
    (idle 0xFFFFFFFFFFFFFFFF 0xFFFFFFFFFFFFFFFF 0).status.busy = false ∧
    inFlight ⟨1, 0, 0, 0⟩ (flying ⟨1, 0, 0, 0⟩ 0xFFFFFFFFFFFFFFFF 0xFFFFFFFFFFFFFFFF 0) ∧
    inFlight ⟨2, 0, 0, 0⟩ (flying ⟨2, 0, 0, 0⟩ 0 0xFFFFFFFFFFFFFFFF 0) ∧
    opOf 0x8000000000000001 = 1 ∧ (0x8000000000000001 : Word) ≠ 1 ∧ opOf 0x12 = 2 ∧ (0x12 : Word) ≠ 2 := by
  unfold inFlight; decide

/-- RoundCompletes: AUX at 2^48 - 1 and at 2^48, the command in flight, an illegal word with its OP. -/
theorem witness_RoundCompletes :
    (idle 0 0 0xFFFFFFFFFFFF).status.busy = false ∧ (idle 0 0 0xFFFFFFFFFFFF).aux.toNat < 2 ^ 48 ∧
    (idle 0 0 0x1000000000000).aux.toNat ≥ 2 ^ 48 ∧ inFlight ⟨3, 0, 0, 0⟩ (flying ⟨3, 0, 0, 0⟩ 0 0 0xFFFFFFFFFFFF) ∧
    (flying ⟨3, 0, 0, 0⟩ 0 0 0xFFFFFFFFFFFF).latAux.toNat < 2 ^ 48 ∧ opOf 0x103 = 3 ∧ (0x103 : Word) ≠ 3 := by
  unfold inFlight; decide

/-- SboxCompletes: DIN at 2^48 - 1 and at 2^48, the command in flight, an illegal word with its OP. -/
theorem witness_SboxCompletes :
    (idle 0xFFFFFFFFFFFF 0 0).status.busy = false ∧ (idle 0xFFFFFFFFFFFF 0 0).din.toNat < 2 ^ 48 ∧
    (idle 0x1000000000000 0 0).din.toNat ≥ 2 ^ 48 ∧ inFlight ⟨4, 0, 0, 0⟩ (flying ⟨4, 0, 0, 0⟩ 0xFFFFFFFFFFFF 0 0) ∧
    (flying ⟨4, 0, 0, 0⟩ 0xFFFFFFFFFFFF 0 0).latDin.toNat < 2 ^ 48 ∧ opOf 0x14 = 4 ∧ (0x14 : Word) ≠ 4 := by
  unfold inFlight; decide

/-- PermuteCompletes: every selector with the largest DIN its table takes, the smallest over-wide one where there is one, the
command in flight, the two selectors with no table, and illegal words with its OP. -/
theorem witness_PermuteCompletes :
    (∀ r ∈ permRows, (idle (BitVec.ofNat 64 (2 ^ r.2.1 - 1)) 0 0).din.toNat < 2 ^ r.2.1 ∧
      inFlight ⟨5, r.1, 0, 0⟩ (flying ⟨5, r.1, 0, 0⟩ 0 0 0) ∧
      (flying ⟨5, r.1, 0, 0⟩ (BitVec.ofNat 64 (2 ^ r.2.1 - 1)) 0 0).latDin.toNat < 2 ^ r.2.1) ∧
    (∀ r ∈ permRows, r.2.1 < 64 → (idle (BitVec.ofNat 64 (2 ^ r.2.1)) 0 0).din.toNat ≥ 2 ^ r.2.1) ∧
    (6 : BitVec 3).toNat ≥ 6 ∧ (7 : BitVec 3).toNat ≥ 6 ∧
    (opOf 0x15 = 5 ∧ (0x15 : Word) &&& rsvMask ≠ 0) ∧ (opOf 0x10005 = 5 ∧ fieldWidth 0x10005 ≠ 0) ∧
    (opOf 0x1000005 = 5 ∧ fieldAmt 0x1000005 ≠ 0) := by
  unfold inFlight; decide +kernel

/-- RotlCompletes: idle, in flight at the smallest and the largest width, and illegal words with its OP. -/
theorem witness_RotlCompletes :
    (idle 0 0 0).status.busy = false ∧ inFlight ⟨6, 0, 1, 0⟩ (flying ⟨6, 0, 1, 0⟩ 1 0 0) ∧
    (flying ⟨6, 0, 1, 0⟩ 1 0 0).latDin.toNat < 2 ^ (1 : BitVec 7).toNat ∧
    inFlight ⟨6, 0, 64, 63⟩ (flying ⟨6, 0, 64, 63⟩ 0xFFFFFFFFFFFFFFFF 0 0) ∧ (64 : BitVec 7).toNat ≤ 64 ∧
    (63 : BitVec 6).toNat < (64 : BitVec 7).toNat ∧
    (flying ⟨6, 0, 64, 63⟩ 0xFFFFFFFFFFFFFFFF 0 0).latDin.toNat < 2 ^ (64 : BitVec 7).toNat ∧
    (opOf 0x40000006 = 6 ∧ (0x40000006 : Word) &&& rsvMask ≠ 0) ∧ (opOf 0x11C0106 = 6 ∧ fieldTsel 0x11C0106 ≠ 0) ∧
    (Instr.rotl 1 0).wf = true := by
  unfold inFlight; decide

/-- RotrCompletes: the same for ROTR. -/
theorem witness_RotrCompletes :
    (idle 0 0 0).status.busy = false ∧ inFlight ⟨7, 0, 1, 0⟩ (flying ⟨7, 0, 1, 0⟩ 1 0 0) ∧
    (flying ⟨7, 0, 1, 0⟩ 1 0 0).latDin.toNat < 2 ^ (1 : BitVec 7).toNat ∧
    inFlight ⟨7, 0, 64, 63⟩ (flying ⟨7, 0, 64, 63⟩ 0xFFFFFFFFFFFFFFFF 0 0) ∧
    (flying ⟨7, 0, 64, 63⟩ 0xFFFFFFFFFFFFFFFF 0 0).latDin.toNat < 2 ^ (64 : BitVec 7).toNat ∧
    (opOf 0x40000007 = 7 ∧ (0x40000007 : Word) &&& rsvMask ≠ 0) ∧ (opOf 0x11C0107 = 7 ∧ fieldTsel 0x11C0107 ≠ 0) := by
  unfold inFlight; decide

/-- CommandFrame: every command answers a next state idle and in flight. -/
theorem witness_CommandFrame :
    (∀ i ∈ [Instr.encrypt, .keysched, .round, .sbox, .permute 6, .rotl 0 0, .rotr 28 28], (after (exec i (idle 0 0 0))).isSome) ∧
    (∀ i ∈ [Instr.keysched, .round, .sbox, .permute 0, .rotl 28 1, .rotr 64 63],
      (after (exec i (flying (latFields i) 0 0 0))).isSome) := by decide +kernel

/-- TwoHalvesGiveTheResult: the largest operands of each command on an idle core. -/
theorem witness_TwoHalvesGiveTheResult :
    (idle 0 0 0xFFFFFFFFFFFF).status.busy = false ∧ (idle 0 0 0xFFFFFFFFFFFF).aux.toNat < 2 ^ 48 ∧
    (idle 0xFFFFFFFFFFFF 0 0).din.toNat < 2 ^ 48 ∧
    (∀ r ∈ permRows, (idle (BitVec.ofNat 64 (2 ^ r.2.1 - 1)) 0 0).din.toNat < 2 ^ r.2.1) ∧
    (Instr.rotl 64 63).wf = true ∧ (idle 0xFFFFFFFFFFFFFFFF 0 0).din.toNat < 2 ^ (64 : BitVec 7).toNat ∧
    (Instr.rotl 1 0).wf = true ∧ (idle 1 0 0).din.toNat < 2 ^ (1 : BitVec 7).toNat := by decide +kernel

/-- AcceptanceOfARequest, ErrorsArePrecise, FirstErrorIsReported: an idle core whose request ends in an error. -/
theorem witness_error_endings :
    (idle 0xFFFFFFFFFFFFFFFF 0 0).status.busy = false ∧
    (after (hostWrite 0 0 (idle 0xFFFFFFFFFFFFFFFF 0 0))).map (·.status.err) = some true ∧ decodeRow 0 = none ∧
    (decodeRow 0x605 = some (.permute 6) ∧ (6 : BitVec 3).toNat ≥ 6) ∧
    (decodeRow 0x000006 = some (.rotl 0 0) ∧ decodeRow 0x410007 = some (.rotr 65 0) ∧ (65 : BitVec 7).toNat > 64) ∧
    (decodeRow 0x1C1C0006 = some (.rotl 28 28) ∧ (28 : BitVec 6).toNat ≥ (28 : BitVec 7).toNat) ∧
    (after (hostWrite 0 4 (idle 0xFFFFFFFFFFFFFFFF 0 0))).map (·.status.errcode) = some 5 := by decide +kernel

/-- OperandCheckByWidth: well-formed commands that decode, on an idle core. -/
theorem witness_OperandCheckByWidth :
    (Instr.rotl 63 62).wf = true ∧ decode 0x3E3F0006 = .ok (.rotl 63 62) ∧ (idle 0 0 0).status.busy = false := by decide

/-- BusyRequestIsDropped: a busy core; and OVR cleared by a request and by Reset. -/
theorem witness_BusyRequestIsDropped :
    (flying ⟨1, 0, 0, 0⟩ 0 0 0).status.busy = true ∧
    ∀ l ∈ [HostLine.wr 0 (.lit 1), .reset],
      (after (step { hosting [l] (idle 0 0 0) with status := ⟨false, true, false, true, 0⟩ })).map (·.status.ovr) =
        some false := by decide +kernel

/-- The invariant holds with a command in flight. -/
theorem inv_flying (i : Instr) (d k a : Word) (p : List HostLine) (h : commandCheck i d a = none) :
    MachineInv (hosting p (flying (latFields i) d k a)) where
  status := ⟨by simp [hosting, flying], by simp [hosting, flying], by simp [hosting, flying], by simp [hosting, flying]⟩
  latch := fun _ => ⟨i, rfl, h⟩
  rk := fun j => by simp [hosting, flying, State.reset]
  vars := rfl

/-- The invariant holds on an idle core, whatever its host has to issue. -/
theorem inv_idle (d k a : Word) (p : List HostLine) : MachineInv (hosting p (idle d k a)) where
  status := ⟨by simp [hosting, idle, State.reset], by simp [hosting, idle, State.reset], by simp [hosting, idle, State.reset],
    by simp [hosting, idle, State.reset]⟩
  latch := fun h => by simp [hosting, idle, State.reset] at h
  rk := fun j => by simp [hosting, idle, State.reset]
  vars := rfl

/-- CompleteCannotFail: each command in flight meets the invariant, and it is the engine's turn. -/
theorem witness_CompleteCannotFail :
    (∀ i ∈ [Instr.encrypt, .keysched, .round, .sbox, .permute 5, .rotl 64 63, .rotr 1 0],
      MachineInv (hosting [] (flying (latFields i) 1 0 0)) ∧
        (hosting [] (flying (latFields i) 1 0 0)).status.busy = true) ∧
    engineTurn (flying ⟨1, 0, 0, 0⟩ 0 0 0) = true := by
  refine ⟨fun i hi => ⟨inv_flying i 1 0 0 [] ?_, rfl⟩, by decide⟩
  revert i
  decide +kernel

/-- StatusWriters and RegisterWriters: steps that change STATUS, RK, DOUT, DIN, KEY, AUX and the latch; an index other than CMD. -/
theorem witness_writers :
    (after (step (flying ⟨2, 0, 0, 0⟩ 0 0x133457799BBCDFF1 0))).map (fun t => t.rk == State.reset.rk) = some false ∧
    (after (step (flying ⟨4, 0, 0, 0⟩ 0 0 0))).map (fun t => (t.dout == 0, t.status == ⟨true, false, false, false, 0⟩)) =
      some (false, false) ∧
    (after (step (hosting [.wr 2 (.lit 7)] (idle 0 0 0)))).map (·.din) = some 7 ∧
    (after (step (hosting [.wr 3 (.lit 7)] (idle 0 0 0)))).map (·.key) = some 7 ∧
    (after (step (hosting [.wr 4 (.lit 7)] (idle 0 0 0)))).map (·.aux) = some 7 ∧
    (after (step (hosting [.wr 0 (.lit 3)] (idle 0 0 0)))).map (·.latCmd.op) = some 3 ∧
    (after (hostWrite 31 7 (idle 0 0 0))).isSome := by decide +kernel

/-- OperandWritesWhileBusyAreSafe: a busy core whose command completes. -/
theorem witness_OperandWritesWhileBusyAreSafe :
    (flying ⟨4, 0, 0, 0⟩ 0 0 0).status.busy = true ∧ (after (engineComplete (flying ⟨4, 0, 0, 0⟩ 0 0 0))).isSome := by decide +kernel

/-- EncryptDependsOnItsOperandsOnly: two different states with one pair of latched operands. -/
theorem witness_EncryptDependsOnItsOperandsOnly :
    inFlight ⟨1, 0, 0, 0⟩ (flying ⟨1, 0, 0, 0⟩ 5 6 7) ∧ inFlight ⟨1, 0, 0, 0⟩ (flying ⟨1, 0, 0, 0⟩ 5 6 8) ∧
    flying ⟨1, 0, 0, 0⟩ 5 6 7 ≠ flying ⟨1, 0, 0, 0⟩ 5 6 8 := by
  unfold inFlight; decide +kernel

/-- BusyUntilComplete: the engine's turn, a host's read while busy, and a read on an idle core. -/
theorem witness_BusyUntilComplete :
    (engineTurn (flying ⟨4, 0, 0, 0⟩ 0 0 0) = true ∧ (after (step (flying ⟨4, 0, 0, 0⟩ 0 0 0))).isSome) ∧
    (after (hostStep (hosting [.rd 1 none] (flying ⟨4, 0, 0, 0⟩ 0 0 0)))).isSome ∧
    (after (step (hosting [.rd 1 none] (idle 0 0 0)))).isSome ∧
    ¬ resetNext (hosting [.rd 1 none] (idle 0 0 0)) ∧ ¬ requestNext (hosting [.rd 1 none] (idle 0 0 0)) := by
  refine ⟨by decide +kernel, by decide +kernel, by decide +kernel, ?_, ?_⟩
  · rintro ⟨r, h⟩
    cases h
  · rintro (⟨v, r, h⟩ | ⟨a, b, r, h, -⟩) <;> cases h

/-- EngineTurnComes: a busy core whose host polls. -/
theorem witness_EngineTurnComes :
    (hosting [.wait 0] (flying ⟨1, 0, 0, 0⟩ 0 0 0)).status.busy = true ∧
    ∀ l ∈ (hosting [.wait 0] (flying ⟨1, 0, 0, 0⟩ 0 0 0)).program, l ≠ .reset ∧ isBusLine l = false := by decide

/-- RequestAndCompleteInEitherOrder: a request while busy. -/
theorem witness_RequestAndCompleteInEitherOrder :
    (hosting [.wr 0 (.lit 1)] (flying ⟨1, 0, 0, 0⟩ 0 0 0)).status.busy = true ∧
    (hosting [.wr 0 (.lit 1)] (flying ⟨1, 0, 0, 0⟩ 0 0 0)).program = [.wr 0 (.lit 1)] := by decide

/-- HostReadByIndex and ReadsInFlightAreDraws: DOUT exact while KEYSCHED is in flight and a draw otherwise, RK the other way round, and
both exact on an idle core. -/
theorem witness_reads :
    (¬ ((flying ⟨2, 0, 0, 0⟩ 0 0 0).status.busy = true ∧ (flying ⟨2, 0, 0, 0⟩ 0 0 0).latCmd.op ≠ 2)) ∧
    ((flying ⟨1, 0, 0, 0⟩ 0 0 0).status.busy = true ∧ (flying ⟨1, 0, 0, 0⟩ 0 0 0).latCmd.op ≠ 2) ∧
    (hostRead 5 (flying ⟨1, 0, 0, 0⟩ 0 0 0)).2.drawn = 1 ∧ (hostRead 31 (flying ⟨2, 0, 0, 0⟩ 0 0 0)).2.drawn = 1 ∧
    (hostRead 31 (flying ⟨1, 0, 0, 0⟩ 0 0 0)).1 = 0 ∧ (hostRead 5 (idle 0 0 0)).1 = 0 := by decide +kernel

/-- WaitPollsUntilIdle: a busy and an idle core, and another variable. -/
theorem witness_WaitPollsUntilIdle :
    (flying ⟨1, 0, 0, 0⟩ 0 0 0).status.busy = true ∧ (idle 0 0 0).status.busy = false ∧ 1 ≠ 0 := by decide

/-- MoveCopiesARegister and RunEncryptEndsWithTheCiphertext: the lines as the host's program on an idle core. -/
theorem witness_programs :
    (idle 0 0 0).status.busy = false ∧ Reg.dout ≠ .reserved ∧ Reg.rk 15 ≠ .reserved ∧
    (∀ dst ∈ [Reg.din, .key, .aux],
      (hosting (linesMove dst .dout 3 ++ []) (idle 0 0 0)).program = linesMove dst .dout 3 ++ []) ∧
    (hosting (linesRun .encrypt 3 ++ []) (idle 0 0 0)).program = linesRun .encrypt 3 ++ [] := by decide

/-- BusAccessIsTheTransaction: eight bytes; a misaligned and a narrow access inside the window; addresses just past the window. -/
theorem witness_BusAccessIsTheTransaction :
    (bytesOfWord 0x0123456789ABCDEF).length = 8 ∧ (255 < 256 ∧ 255 % 8 ≠ 0) ∧ (0 < 256 ∧ 4 ≠ 8) ∧
    Config.coreBase + 256 ≤ Config.coreBase + 256 := ⟨by decide, by decide, by decide, Nat.le_refl _⟩

/-- The bytes of a word, big-endian: the hex digits in reading order (20_memory.md R55). -/
theorem test_bytes : bytesOfWord 0x0123456789ABCDEF = [0x01, 0x23, 0x45, 0x67, 0x89, 0xAB, 0xCD, 0xEF] := by decide

/-- StepsNeverFault: states of the invariant on the engine's turn, on the host's turn with no bus access, and with a narrow bus access,
which is refused. -/
theorem witness_StepsNeverFault :
    (MachineInv (hosting [.busRd Config.coreBase 4 none] (idle 0 0 0)) ∧
      step (hosting [.busRd Config.coreBase 4 none] (idle 0 0 0)) = .refused .partialAccess) ∧
    (MachineInv (hosting [] (flying ⟨4, 0, 0, 0⟩ 0 0 0)) ∧ engineTurn (hosting [] (flying ⟨4, 0, 0, 0⟩ 0 0 0)) = true) ∧
    (∀ l rest, (hosting [.reset] (idle 0 0 0)).program = l :: rest → isBusLine l = false) := by
  refine ⟨⟨inv_idle 0 0 0 _, ?_⟩, ⟨inv_flying .sbox 0 0 0 [] (by decide), by decide⟩, fun l rest h => ?_⟩
  · simp [step, oneStep, engineTurn, hosting, idle, State.reset, hostStep, hostLine, busIndex]
  · cases h
    rfl

/-- StatusStaysLegal, StepKeepsInvariant: a state that meets the invariant with a command in flight, and an idle one with a request to
issue, each with a step that answers a next state. -/
theorem witness_invariant :
    (MachineInv (hosting [] (flying ⟨4, 0, 0, 0⟩ 0 0 0)) ∧ (after (step (hosting [] (flying ⟨4, 0, 0, 0⟩ 0 0 0)))).isSome) ∧
    (MachineInv (hosting [.wr 0 (.lit 1)] (idle 0 0 0)) ∧ (after (step (hosting [.wr 0 (.lit 1)] (idle 0 0 0)))).isSome) :=
  ⟨⟨inv_flying .sbox 0 0 0 [] (by decide), by decide +kernel⟩, ⟨inv_idle 0 0 0 _, by decide +kernel⟩⟩

end Sys2Proof.Tests
end

