-- ==== Sys2Proof/Proofs/StatusWriters.lean ====
section
/-! Who writes STATUS (10_state.md R31). -/

namespace Sys2Proof.Machine

open Sys2Proof.Claims

/-- Where the next line writes an index, the state's next host line writes that register. -/
theorem writeNext_of_writesIndex {idx : BitVec 5} {s : State} {l : HostLine} {rest : List HostLine}
    (hp : s.program = l :: rest) (hw : writesIndex idx l) : writeNext idx s := by
  rcases hw with ⟨v, rfl⟩ | ⟨addr, bytes, rfl, hidx⟩
  · exact .inl ⟨v, rest, hp⟩
  · exact .inr ⟨addr, bytes, rest, hp, hidx⟩

/-- A request is a write of CMD, index 0 of the port (20_memory.md R53). -/
theorem requestNext_iff_writeNext (s : State) : requestNext s ↔ writeNext 0 s := Iff.rfl

/-- A host line that changes STATUS is a write of CMD or Reset. -/
theorem hostLine_status {l : HostLine} {s t : State} (h : hostLine l s = .next t) :
    t.status = s.status ∨ writesIndex 0 l ∨ l = .reset := by
  rcases hostLine_next h with ⟨_, hw, -⟩ | ⟨_, -, rfl⟩ | ⟨_, -, rfl⟩ | ⟨_, -, rfl⟩ | ⟨_, _, _, rfl, -⟩ | ⟨hl, -⟩
  · exact .inr (.inl hw)
  · exact .inl rfl
  · exact .inl rfl
  · exact .inl rfl
  · exact .inl rfl
  · exact .inr (.inr hl)

/-- A step that changes STATUS is Complete, a request or Reset. -/
theorem step_status {s t : State} (h : step s = .next t) (hne : t.status ≠ s.status) :
    (s.status.busy = true ∧ engineTurn s = true) ∨ requestNext s ∨ resetNext s := by
  rcases step_next h with ⟨hb, he, -⟩ | ⟨-, -, rfl⟩ | ⟨-, l, rest, hp, hl⟩
  · exact .inl ⟨hb, he⟩
  · exact absurd rfl hne
  · rcases hostLine_status hl with hs | hw | rfl
    · exact absurd hs hne
    · exact .inr (.inl ((requestNext_iff_writeNext s).2 (writeNext_of_writesIndex hp hw)))
    · exact .inr (.inr ⟨rest, hp⟩)

/-- A host write of an index other than CMD's leaves STATUS alone. -/
theorem hostWrite_status {idx : BitVec 5} {v : Word} {s t : State} (hidx : idx ≠ 0)
    (h : hostWrite idx v s = .next t) : t.status = s.status := by
  rcases hostWrite_next h with ⟨h0, -⟩ | ⟨-, rfl⟩ | ⟨-, rfl⟩ | ⟨-, rfl⟩ | rfl
  · exact absurd h0 hidx
  all_goals rfl

/-- Settles O34: by the inversion of a step, only Complete, a request and Reset reach STATUS. -/
theorem statusWriters : Obligations.StatusWriters :=
  ⟨fun _ _ => step_status, fun _ _ _ _ => hostWrite_status⟩

end Sys2Proof.Machine
end

section
/-! What a host transaction does, by its index (20_memory.md R50, R51). -/

namespace Sys2Proof.Machine

open Sys2Proof.Claims

/-- Settles O41: each test of the index is a test of the register it names, and `hostWrite_cases` says what a write does there. -/
theorem hostWriteByIndex : Obligations.HostWriteByIndex := by
  intro idx v s
  simp only [← regOf_eq_cmd, ← regOf_eq_din, ← regOf_eq_key, ← regOf_eq_aux]
  rcases hostWrite_cases idx v s with
    ⟨hr, hw⟩ | ⟨hr, hw⟩ | ⟨hr, hw⟩ | ⟨hr, hw⟩ | ⟨hr | hr | hr | ⟨i, hr⟩, hw⟩ <;> simp [hw, hr]

/-- A host read changes nothing of the core. -/
theorem hostRead_sameCore (idx : BitVec 5) (s : State) : sameCore s (hostRead idx s).2 := by
  rcases hostRead_state idx s with h | h <;> rw [h] <;> rfl

/-- A read of a register no command in flight writes is exact. -/
theorem hostRead_of_not_inFlight {idx : BitVec 5} {r : Reg} {s : State} (hr : regOf idx = r)
    (h : inFlightTarget r s = false) : hostRead idx s = (regValue r s, s) := by
  simp [hostRead, hr, h]

/-- A read of DOUT is a draw while a command other than KEYSCHED is in flight. -/
theorem inFlightTarget_dout (s : State) :
    inFlightTarget .dout s = false ↔ ¬ (s.status.busy = true ∧ s.latCmd.op ≠ 2) := by
  simp [inFlightTarget]

/-- A read of RK is a draw while KEYSCHED is in flight. -/
theorem inFlightTarget_rk (i : Fin 16) (s : State) :
    inFlightTarget (.rk i) s = false ↔ ¬ (s.status.busy = true ∧ s.latCmd.op = 2) := by
  simp [inFlightTarget]

/-- The value of RK[i] at the port is entry i of the list of round keys. -/
theorem regValue_rk (i : Fin 16) (s : State) : regValue (.rk i) s = s.rk.toList.getD i.val 0 := by
  simp [regValue, Vector.get, List.getD]

/-- Settles O42: each test of the index is a test of the register it names, and a read that is no draw returns that register's value. -/
theorem hostReadByIndex : Obligations.HostReadByIndex := by
  intro idx s
  refine ⟨hostRead_sameCore idx s, ?_⟩
  simp only [← regOf_eq_cmd, ← regOf_eq_status, ← regOf_eq_din, ← regOf_eq_key, ← regOf_eq_aux, ← regOf_eq_dout]
  cases hr : regOf idx with
  | dout =>
    simp only [reduceCtorEq, if_false, if_true]
    intro h
    rw [hostRead_of_not_inFlight hr ((inFlightTarget_dout s).2 h)]
    rfl
  | rk i =>
    have hidx : idx.toNat = 16 + i.val := (regOf_eq_rk idx i).1 hr
    have hge : ¬ idx.toNat < 16 := by omega
    have hi : idx.toNat - 16 = i.val := by omega
    simp only [reduceCtorEq, if_false, hge, hi]
    intro h
    rw [hostRead_of_not_inFlight hr ((inFlightTarget_rk i s).2 h), regValue_rk]
  | reserved =>
    have hlt : idx.toNat < 16 := ((regOf_eq_reserved idx).1 hr).2
    simp [hlt, hostRead_of_not_inFlight hr rfl, regValue]
  | _ => simp [hostRead_of_not_inFlight hr rfl, regValue, statusWord]

end Sys2Proof.Machine
end

section
/-! The words the decoder refuses as ILLEGAL_CMD (30_encoding.md R76), by the masks of the word's fields (R70). -/

namespace Sys2Proof.Machine

open Sys2Proof.Claims

/-- A comparison under a mask of two parts, the second of which the value avoids, is one comparison under each part. -/
theorem and_or_eq_iff {w a b c : Word} (ha : c &&& a = c) (hb : c &&& b = 0) :
    w &&& (a ||| b) = c ↔ w &&& a = c ∧ w &&& b = 0 := by
  constructor
  · intro h
    have keepA : (a ||| b) &&& a = a := by ext; simp +contextual
    have keepB : (a ||| b) &&& b = b := by ext; simp +contextual
    exact ⟨by rw [← keepA, ← BitVec.and_assoc, h, ha], by rw [← keepB, ← BitVec.and_assoc, h, hb]⟩
  · rintro ⟨h₁, h₂⟩
    rw [BitVec.and_or_distrib_left, h₁, h₂]
    exact BitVec.or_zero

/-- A field of the word is read by comparing the word under the field's mask. -/
theorem extractLsb'_eq_iff_and_mask (w : Word) (start len : Nat) (v : BitVec len) (h : start + len ≤ 64) :
    w.extractLsb' start len = v ↔
      w &&& ((BitVec.allOnes len).setWidth 64 <<< start) = v.setWidth 64 <<< start := by
  constructor
  · rintro rfl
    ext j hj
    by_cases hs : j < start
    · simp [hs]
    · have : start + (j - start) = j := by omega
      simp [hs, this, hj, BitVec.getLsbD_eq_getElem, Bool.and_comm]
  · intro hw
    ext j hj
    have hbit := congrArg (fun x : Word => x.getLsbD (start + j)) hw
    have hlt : start + j < 64 := by omega
    have hj64 : j < 64 := by omega
    simpa [hlt, hj64, hj] using hbit

/-- OP is read under the mask of bits 3:0 (30_encoding.md R70). -/
theorem opOf_eq_iff (w : Word) (op : BitVec 4) : opOf w = op ↔ w &&& 0xF = op.setWidth 64 := by
  rw [opOf, extractLsb'_eq_iff_and_mask w 0 4 op (by decide), BitVec.shiftLeft_zero, BitVec.shiftLeft_zero]
  rfl

/-- TSEL is 0 where bits 10:8 are. -/
theorem fieldTsel_eq_zero_iff (w : Word) : fieldTsel w = 0 ↔ w &&& 0x700 = 0 :=
  extractLsb'_eq_iff_and_mask w 8 3 0 (by decide)

/-- WIDTH is 0 where bits 22:16 are. -/
theorem fieldWidth_eq_zero_iff (w : Word) : fieldWidth w = 0 ↔ w &&& 0x7F0000 = 0 :=
  extractLsb'_eq_iff_and_mask w 16 7 0 (by decide)

/-- AMT is 0 where bits 29:24 are. -/
theorem fieldAmt_eq_zero_iff (w : Word) : fieldAmt w = 0 ↔ w &&& 0x3F000000 = 0 :=
  extractLsb'_eq_iff_and_mask w 24 6 0 (by decide)

/-- Two sets of bits are both clear where their union is. -/
theorem and_or_eq_zero_iff (w a b : Word) : w &&& (a ||| b) = 0 ↔ w &&& a = 0 ∧ w &&& b = 0 :=
  and_or_eq_iff BitVec.zero_and BitVec.zero_and

/-- A row whose mask is OP and the bits `m` matches the words with its OP and those bits clear. -/
theorem rowHit_iff {c m : Word} {op : BitVec 4} (hc : op.setWidth 64 = c) (hm : m &&& 0xF = 0) (w : Word) :
    rowHit c (0xF ||| m) w = true ↔ opOf w = op ∧ w &&& m = 0 := by
  have hop : c &&& 0xF = c := by subst hc; revert op; decide
  have hclear : c &&& m = 0 := by
    rw [← hop, BitVec.and_assoc, BitVec.and_comm 0xF m, hm]
    exact BitVec.and_zero
  rw [rowHit, beq_iff_eq, and_or_eq_iff hop hclear, opOf_eq_iff, hc]

/-- A row that uses no field matches the words with its OP and every other bit clear. -/
theorem rowHit_noFields_iff {c : Word} {op : BitVec 4} (hc : op.setWidth 64 = c) (w : Word) :
    rowHit c 0xFFFFFFFFFFFFFFFF w = true ↔
      opOf w = op ∧ w &&& rsvMask = 0 ∧ fieldTsel w = 0 ∧ fieldWidth w = 0 ∧ fieldAmt w = 0 := by
  have h := rowHit_iff (m := rsvMask ||| (0x700 ||| (0x7F0000 ||| 0x3F000000))) hc (by decide) w
  rwa [and_or_eq_zero_iff, and_or_eq_zero_iff, and_or_eq_zero_iff, ← fieldTsel_eq_zero_iff, ← fieldWidth_eq_zero_iff,
    ← fieldAmt_eq_zero_iff] at h

/-- A row that uses TSEL alone matches the words with its OP, the reserved bits clear, and WIDTH and AMT clear. -/
theorem rowHit_tsel_iff {c : Word} {op : BitVec 4} (hc : op.setWidth 64 = c) (w : Word) :
    rowHit c 0xFFFFFFFFFFFFF8FF w = true ↔
      opOf w = op ∧ w &&& rsvMask = 0 ∧ fieldWidth w = 0 ∧ fieldAmt w = 0 := by
  have h := rowHit_iff (m := rsvMask ||| (0x7F0000 ||| 0x3F000000)) hc (by decide) w
  rwa [and_or_eq_zero_iff, and_or_eq_zero_iff, ← fieldWidth_eq_zero_iff, ← fieldAmt_eq_zero_iff] at h

/-- A row that uses WIDTH and AMT matches the words with its OP, the reserved bits clear and TSEL clear. -/
theorem rowHit_rotation_iff {c : Word} {op : BitVec 4} (hc : op.setWidth 64 = c) (w : Word) :
    rowHit c 0xFFFFFFFFC080FFFF w = true ↔ opOf w = op ∧ w &&& rsvMask = 0 ∧ fieldTsel w = 0 := by
  have h := rowHit_iff (m := rsvMask ||| 0x700) hc (by decide) w
  rwa [and_or_eq_zero_iff, ← fieldTsel_eq_zero_iff] at h

/-- An OP is a reserved one, which no row has, or the OP of one of the seven rows (30_encoding.md R71). -/
theorem op_reserved_or_command : ∀ op : BitVec 4,
    ((op = 0 ∨ op ≥ 8) ∧ op ≠ 1 ∧ op ≠ 2 ∧ op ≠ 3 ∧ op ≠ 4 ∧ op ≠ 5 ∧ op ≠ 6 ∧ op ≠ 7) ∨
      op = 1 ∨ op = 2 ∨ op = 3 ∨ op = 4 ∨ op = 5 ∨ op = 6 ∨ op = 7 := by
  decide

/-- The words that select no row: a reserved OP selects none, and each other OP has one row, which wants the reserved bits and
the fields it does not use clear. -/
theorem decodeRow_eq_none_iff (w : Word) :
    decodeRow w = none ↔
      opOf w = 0 ∨ opOf w ≥ 8 ∨ w &&& rsvMask ≠ 0 ∨ (opOf w ≠ 5 ∧ fieldTsel w ≠ 0) ∨
        (opOf w ≠ 6 ∧ opOf w ≠ 7 ∧ (fieldWidth w ≠ 0 ∨ fieldAmt w ≠ 0)) := by
  simp only [decodeRow, ite_eq_iff, reduceCtorEq, and_false, false_or, and_true,
    rowHit_noFields_iff (c := 1) (op := 1) rfl, rowHit_noFields_iff (c := 2) (op := 2) rfl,
    rowHit_noFields_iff (c := 3) (op := 3) rfl, rowHit_noFields_iff (c := 4) (op := 4) rfl,
    rowHit_tsel_iff (c := 5) (op := 5) rfl, rowHit_rotation_iff (c := 6) (op := 6) rfl,
    rowHit_rotation_iff (c := 7) (op := 7) rfl]
  rcases op_reserved_or_command (opOf w) with ⟨hr, hne⟩ | h | h | h | h | h | h | h
  · rw [← or_assoc]
    simp only [hr, hne, false_and, not_false_eq_true, and_self, true_or]
  all_goals simp [h, imp_iff_not_or]

/-- No field check raises ILLEGAL_CMD. -/
theorem fieldCheck_ne_illegalCmd (i : Instr) : fieldCheck i ≠ some .illegalCmd := by
  have hrot : ∀ n a, rotationCheck n a ≠ some .illegalCmd := by
    intro n a
    unfold rotationCheck
    split_ifs <;> simp
  cases i with
  | permute t => simp only [fieldCheck]; split_ifs <;> simp
  | rotl n a => exact hrot n a
  | rotr n a => exact hrot n a
  | _ => simp [fieldCheck]

/-- The decoder's error ILLEGAL_CMD is the absence of a row. -/
theorem decode_eq_illegalCmd_iff (w : Word) : decode w = .error .illegalCmd ↔ decodeRow w = none := by
  unfold decode
  cases decodeRow w with
  | none => simp
  | some i =>
    have hf := fieldCheck_ne_illegalCmd i
    cases h : fieldCheck i <;> simp_all

/-- The error ending of a request on an idle core leaves the flags of the error alone set (60_exceptions.md R160, R161). -/
theorem raiseError_clearFlags {s : State} (e : ErrKind) (hb : s.status.busy = false) :
    raiseError e (clearFlags s) = errorState (errCode e) s := by
  simp [raiseError, clearFlags, flagsError, flagsCleared, errorState, hb]

/-- A request for a word that selects no row, on an idle core, ends in the error with code 1. -/
theorem commandRequest_of_no_row {w : Word} {s : State} (hb : s.status.busy = false) (hrow : decodeRow w = none) :
    commandRequest w s = .next (errorState 1 s) := by
  have h : raiseError .illegalCmd (clearFlags s) = errorState 1 s := raiseError_clearFlags .illegalCmd hb
  simp [commandRequest, hb, hrow, h]

/-- Settles O4: decoding is illegal where no row is selected, each row's mask is OP, the reserved bits and the fields it does not
use, and a request with no row raises code 1. -/
theorem illegalWordsExactly : Obligations.IllegalWordsExactly := fun w =>
  ⟨(decode_eq_illegalCmd_iff w).trans (decodeRow_eq_none_iff w), fun s hb hd =>
    (hostWrite_cmd w s).trans (commandRequest_of_no_row hb ((decode_eq_illegalCmd_iff w).1 hd))⟩

end Sys2Proof.Machine
end

section
/-! The bits of the permuter and of the S-box bank (40_primitives.md R117, R120). -/

namespace Sys2Proof.Machine

open Sys2Proof.Claims

/-- Settles O7: the output's bit m - k is DES bit k, which the permuter takes from DES bit `t_k` of the input. -/
theorem permuteMovesEachBit : Obligations.PermuteMovesEachBit := by
  intro n table v _ k hk hkm
  have hentry : table.length - 1 - (table.length - k) = k - 1 := by omega
  rw [permute_getLsbD table v (by omega), hentry, desbit]

/-- The permuter brings zeros to zeros, whatever its table. -/
theorem permute_zero {n : Nat} (m : Nat) (table : List Nat) : permute m table (0 : BitVec n) = 0 := by
  have hfalse : desbit (0 : BitVec n) = fun _ => false := by
    funext k
    simp [desbit]
  rw [permute, hfalse]
  apply BitVec.eq_of_getLsbD_eq
  intro j _
  simp

/-- The permuter brings ones to ones, where its table is as long as the output and names DES bits of the input. -/
theorem permute_allOnes {n m : Nat} {table : List Nat} (hl : table.length = m) (ht : ∀ t ∈ table, 1 ≤ t ∧ t ≤ n) :
    permute m table (BitVec.allOnes n) = BitVec.allOnes m := by
  apply BitVec.eq_of_getLsbD_eq
  intro j hj
  have hentry : m - 1 - j < table.length := by omega
  have hrange := ht _ (List.getElem_mem hentry)
  rw [permute_getLsbD_of_length m table _ hl hj, List.getD_eq_getElem _ _ hentry, BitVec.getLsbD_allOnes,
    BitVec.getLsbD_allOnes, decide_eq_true (by omega), decide_eq_true hj]

/-- Two values that agree under a mask have the same permutation, where the mask has every bit the table reads. -/
theorem permute_congr_of_mask {n m : Nat} {table : List Nat} {v v' mask : BitVec n} (hl : table.length = m)
    (hmask : ∀ t ∈ table, mask.getLsbD (n - t) = true) (h : v &&& mask = v' &&& mask) :
    permute m table v = permute m table v' := by
  apply BitVec.eq_of_getLsbD_eq
  intro j hj
  have hentry : m - 1 - j < table.length := by omega
  have hread := hmask _ (List.getElem_mem hentry)
  have hbit := congrArg (fun x => x.getLsbD (n - table[m - 1 - j])) h
  rw [permute_getLsbD_of_length m table _ hl hj, permute_getLsbD_of_length m table _ hl hj,
    List.getD_eq_getElem _ _ hentry]
  simpa [hread] using hbit

/-- PC-1 reads no parity bit (40_primitives.md R103, 10_state.md R24). -/
theorem permute_tablePc1_sameButParity {v v' : Word} (h : sameButParity v v') :
    permute 56 tablePc1 v = permute 56 tablePc1 v' :=
  permute_congr_of_mask rfl (by decide) h

/-- Part i of eight 4-bit values in a row, the first one on top, is value i. -/
theorem extractLsb'_append_nibbles (y : Fin 8 → BitVec 4) (i : Fin 8) :
    (y 0 ++ y 1 ++ y 2 ++ y 3 ++ y 4 ++ y 5 ++ y 6 ++ y 7).extractLsb' (28 - 4 * i.val) 4 = y i := by
  fin_cases i <;>
    simp (disch := decide) only [BitVec.extractLsb'_append_eq_of_le, BitVec.extractLsb'_append_eq_of_add_le] <;>
    exact BitVec.extractLsb'_eq_self

/-- The output of group `i` stands in nibble 31-4i..28-4i of the bank's result. -/
theorem sboxBank_nibble (x : BitVec 48) (i : Fin 8) :
    (sboxBank x).extractLsb' (28 - 4 * i.val) 4 = sboxOut x i :=
  extractLsb'_append_nibbles (sboxOut x) i

/-- The output of group `i`, with its row and its column read from the 48-bit input. -/
theorem sboxOut_eq (x : BitVec 48) (i : Fin 8) :
    sboxOut x i =
      ((sboxOf i).getD
        (2 * (x.getLsbD (47 - 6 * i.val)).toNat + (x.getLsbD (42 - 6 * i.val)).toNat) []).getD
        ((x.extractLsb' (43 - 6 * i.val) 4).toNat) 0 := by
  have hi := i.isLt
  have hrowHigh : (sboxGroup x i).getLsbD 5 = x.getLsbD (47 - 6 * i.val) := by
    simp [sboxGroup, show 42 - 6 * i.val + 5 = 47 - 6 * i.val by omega]
  have hrowLow : (sboxGroup x i).getLsbD 0 = x.getLsbD (42 - 6 * i.val) := by
    simp [sboxGroup]
  have hcol : (sboxGroup x i).extractLsb' 1 4 = x.extractLsb' (43 - 6 * i.val) 4 := by
    apply BitVec.eq_of_getLsbD_eq
    intro j hj
    have hin : 1 + j < 6 := by omega
    have hpos : 42 - 6 * i.val + (1 + j) = 43 - 6 * i.val + j := by omega
    simp [sboxGroup, hj, hin, hpos]
  simp only [sboxOut, sboxLookup, hrowHigh, hrowLow, hcol]

/-- Settles O12: each nibble of the result is the output of its group, which its row and column select. -/
theorem sboxBankLooksUpEachGroup : Obligations.SboxBankLooksUpEachGroup := fun x i =>
  (sboxBank_nibble x i).trans (sboxOut_eq x i)

end Sys2Proof.Machine
end

section
/-! The shifters bit by bit and on integers (40_primitives.md R118, R119). -/

namespace Sys2Proof.Machine

open Sys2Proof.Claims

section Shifters

variable {m n : Nat}

/-- `mask_n` has exactly the bits below n (00_scope.md R11). -/
theorem lowMask_getLsbD (hn : n ≤ m) (j : Nat) : (lowMask m n).getLsbD j = decide (j < n) := by
  rw [lowMask, BitVec.getLsbD_ofNat, Nat.testBit_two_pow_sub_one, ← Bool.decide_and]
  exact decide_eq_decide.2 ⟨And.right, fun hj => ⟨by omega, hj⟩⟩

/-- Bit j of a left rotation: a bit moved up by s, or one that came round from the top. -/
theorem rotL_getLsbD (v : BitVec m) (hn : n ≤ m) (s j : Nat) :
    (rotL v n s).getLsbD j = (((decide (s ≤ j) && v.getLsbD (j - s)) || v.getLsbD (n - s + j)) && decide (j < n)) := by
  simp only [rotL, BitVec.getLsbD_and, BitVec.getLsbD_or, BitVec.getLsbD_shiftLeft, BitVec.getLsbD_ushiftRight,
    lowMask_getLsbD hn, ← decide_not, Nat.not_lt]
  by_cases hj : j < n
  · simp [hj, show j < m by omega]
  · simp [hj]

/-- RotL is the rule's formula on integers. -/
theorem rotL_toNat (v : BitVec m) (hn : n ≤ m) (s : Nat) :
    (rotL v n s).toNat = ((v.toNat <<< s) ||| (v.toNat >>> (n - s))) &&& (2 ^ n - 1) := by
  apply Nat.eq_of_testBit_eq
  intro j
  rw [BitVec.testBit_toNat, rotL_getLsbD v hn, Nat.testBit_and, Nat.testBit_or, Nat.testBit_shiftLeft,
    Nat.testBit_shiftRight, Nat.testBit_two_pow_sub_one, BitVec.testBit_toNat, BitVec.testBit_toNat]

/-- RotR by s is RotL by the rest of the width: the two parts of the formula change places. -/
theorem rotR_eq_rotL (v : BitVec m) {s : Nat} (hs : s ≤ n) : rotR v n s = rotL v n (n - s) := by
  rw [rotR, rotL, Nat.sub_sub_self hs, BitVec.or_comm]

/-- RotR is the rule's formula on integers. -/
theorem rotR_toNat (v : BitVec m) (hn : n ≤ m) {s : Nat} (hs : s ≤ n) :
    (rotR v n s).toNat = ((v.toNat >>> s) ||| (v.toNat <<< (n - s))) &&& (2 ^ n - 1) := by
  rw [rotR_eq_rotL v hs, rotL_toNat v hn, Nat.sub_sub_self hs, Nat.or_comm]

/-- A left rotation has no bit at or above its width. -/
theorem rotL_toNat_lt (v : BitVec m) (hn : n ≤ m) (s : Nat) : (rotL v n s).toNat < 2 ^ n := by
  rw [rotL_toNat v hn]
  exact Nat.and_lt_two_pow _ (Nat.sub_one_lt (Nat.two_pow_pos n).ne')

/-- A value below 2^n has no bit at or above n. -/
theorem getLsbD_eq_false_of_lt {v : BitVec m} (hv : v.toNat < 2 ^ n) {j : Nat} (hj : n ≤ j) : v.getLsbD j = false := by
  rw [← BitVec.testBit_toNat]
  exact Nat.testBit_lt_two_pow (lt_of_lt_of_le hv (Nat.pow_le_pow_right (by decide) hj))

/-- A left rotation by 0 is the identity on the values of its width. -/
theorem rotL_zero {v : BitVec m} (hn : n ≤ m) (hv : v.toNat < 2 ^ n) : rotL v n 0 = v := by
  apply BitVec.eq_of_getLsbD_eq
  intro j _
  have hover : v.getLsbD (n + j) = false := getLsbD_eq_false_of_lt hv (by omega)
  rw [rotL_getLsbD v hn]
  by_cases hj : j < n
  · simp [hj, hover]
  · simp [hj, getLsbD_eq_false_of_lt hv (Nat.not_lt.1 hj)]

/-- A left rotation by the whole width is the identity on the values of its width. -/
theorem rotL_width {v : BitVec m} (hn : n ≤ m) (hv : v.toNat < 2 ^ n) : rotL v n n = v := by
  apply BitVec.eq_of_getLsbD_eq
  intro j _
  rw [rotL_getLsbD v hn]
  by_cases hj : j < n
  · simp [hj]
  · simp [hj, getLsbD_eq_false_of_lt hv (Nat.not_lt.1 hj)]

/-- A right rotation by 0 is the identity on the values of its width. -/
theorem rotR_zero {v : BitVec m} (hn : n ≤ m) (hv : v.toNat < 2 ^ n) : rotR v n 0 = v :=
  (rotR_eq_rotL v (Nat.zero_le n)).trans (rotL_width hn hv)

/-- A left rotation by s moves bit j to bit (j + s) mod n. -/
theorem rotL_getLsbD_add_mod {v : BitVec m} (hn : n ≤ m) (hv : v.toNat < 2 ^ n) {s j : Nat} (hs : s < n) (hj : j < n) :
    (rotL v n s).getLsbD ((j + s) % n) = v.getLsbD j := by
  rw [rotL_getLsbD v hn]
  by_cases hwrap : j + s < n
  · have hover : v.getLsbD (n - s + (j + s)) = false := getLsbD_eq_false_of_lt hv (by omega)
    simp [Nat.mod_eq_of_lt hwrap, hwrap, hover]
  · have hmod : (j + s) % n = j + s - n := by rw [Nat.mod_eq_sub_mod (by omega), Nat.mod_eq_of_lt (by omega)]
    have hround : n - s + (j + s - n) = j := by omega
    have hlow : ¬ s ≤ j + s - n := by omega
    have hlt : j + s - n < n := by omega
    simp only [hmod, hround, hlow, hlt, decide_false, decide_true, Bool.false_and, Bool.false_or, Bool.and_true]

end Shifters

/-- A left rotation of a block by half its width swaps its halves. -/
theorem rotL_append_half (l r : BitVec 32) : rotL (l ++ r : Word) 64 32 = r ++ l := by
  apply BitVec.eq_of_getLsbD_eq
  intro j hj
  rw [rotL_getLsbD _ le_rfl, BitVec.getLsbD_append, BitVec.getLsbD_append, BitVec.getLsbD_append]
  by_cases hlow : j < 32
  · simp [hlow, hj, show ¬ 32 ≤ j by omega]
  · simp [hlow, hj, show 32 ≤ j by omega, show j - 32 < 32 by omega]

/-- Settles O10: the formula of RotR and that of RotL by the rest are one, and RotL by the whole width is the identity. -/
theorem rotRIsRotLOfTheRest : Obligations.RotRIsRotLOfTheRest := fun v _ _ _ hn hs hv =>
  ⟨rotR_toNat v hn hs.le, fun _ => rotR_eq_rotL v hs.le, rotR_zero hn hv⟩

end Sys2Proof.Machine
end

section
/-! The two halves of a command by its check (60_exceptions.md R160, R161, R165), and the illegal words of an OP
(30_encoding.md R76). -/

namespace Sys2Proof.Machine

open Sys2Proof.Claims

/-- On an idle core, a command whose check finds an error ends in that error. -/
theorem exec_of_error {i : Instr} (e : ErrKind) {s : State} (hb : s.status.busy = false)
    (hc : commandCheck i s.din s.aux = some e) : exec i s = .next (errorState (errCode e) s) := by
  rw [exec_eq_runCommand, runCommand_idle hb, accept, hc]
  exact congrArg _ (raiseError_clearFlags e hb)

/-- The latch of an acceptance on an idle core. -/
theorem latched_latchCommand (i : Instr) (s : State) : latched (latFields i) s (latchCommand i (clearFlags s)) := rfl

/-- On an idle core, a command whose check finds no error is accepted. -/
theorem exec_of_check {i : Instr} {s : State} (hb : s.status.busy = false) (hc : commandCheck i s.din s.aux = none) :
    ∃ t, exec i s = .next t ∧ latched (latFields i) s t := by
  refine ⟨_, ?_, latched_latchCommand i s⟩
  rw [exec_eq_runCommand, runCommand_idle hb, accept, hc]

/-- In flight, a command whose latched operands pass its check completes. -/
theorem exec_in_flight (i : Instr) {s : State} (hf : inFlight (latFields i) s)
    (hc : commandCheck i s.latDin s.latAux = none) : exec i s = .next (completed i s) := by
  obtain ⟨hb, hl⟩ := hf
  rw [exec_eq_runCommand, runCommand_busy hb (hl ▸ latInstr_latFields i) hc]

/-- Complete of a command that writes DOUT. -/
theorem completeDout_eq_doneState (v : Word) (s : State) : completeDout v s = doneState v s := rfl

/-- An operand of its width passes the width check. -/
theorem widthCheck_of_lt {n : Nat} {v : Word} (h : v.toNat < 2 ^ n) : widthCheck n v = none := by
  simp [widthCheck, overWide, h]

/-- An over-wide operand is a WIDTH_ERROR. -/
theorem widthCheck_of_ge {n : Nat} {v : Word} (h : v.toNat ≥ 2 ^ n) : widthCheck n v = some .widthError := by
  simp [widthCheck, overWide, h]

/-- A word with the OP of a row without fields is illegal, unless it is that row's word. -/
theorem decode_illegal_of_noFields {w : Word} {op : BitVec 4} (hop : opOf w = op) (h5 : op ≠ 5) (h6 : op ≠ 6)
    (h7 : op ≠ 7) (hw : w ≠ op.setWidth 64) : decode w = .error .illegalCmd := by
  rw [decode_eq_illegalCmd_iff, decodeRow_eq_none_iff, hop]
  by_contra hlegal
  have hzero : w &&& rsvMask = 0 ∧ fieldTsel w = 0 ∧ fieldWidth w = 0 ∧ fieldAmt w = 0 := by tauto
  have hrow := (rowHit_noFields_iff rfl w).2 ⟨hop, hzero⟩
  rw [rowHit, beq_iff_eq] at hrow
  exact hw (BitVec.and_allOnes.symm.trans hrow)

/-- A PERMUTE word with a reserved bit, WIDTH or AMT set is illegal. -/
theorem decode_illegal_of_permute {w : Word} (hop : opOf w = 5)
    (hw : w &&& rsvMask ≠ 0 ∨ fieldWidth w ≠ 0 ∨ fieldAmt w ≠ 0) : decode w = .error .illegalCmd := by
  rw [decode_eq_illegalCmd_iff, decodeRow_eq_none_iff, hop]
  rcases hw with hrsv | hfield
  · exact .inr (.inr (.inl hrsv))
  · exact .inr (.inr (.inr (.inr ⟨by decide, by decide, hfield⟩)))

/-- A ROTL or ROTR word with a reserved bit or TSEL set is illegal. -/
theorem decode_illegal_of_rotation {w : Word} (hop : opOf w = 6 ∨ opOf w = 7)
    (hw : w &&& rsvMask ≠ 0 ∨ fieldTsel w ≠ 0) : decode w = .error .illegalCmd := by
  rw [decode_eq_illegalCmd_iff, decodeRow_eq_none_iff]
  have h5 : opOf w ≠ 5 := by rcases hop with h | h <;> rw [h] <;> decide
  rcases hw with hrsv | htsel
  · exact .inr (.inr (.inl hrsv))
  · exact .inr (.inr (.inr (.inl ⟨h5, htsel⟩)))

end Sys2Proof.Machine
end

section
/-! SBOX and PERMUTE (40_primitives.md R121, R124). -/

namespace Sys2Proof.Machine

open Sys2Proof.Claims

/-- The check of SBOX is that of DIN against 48 bits. -/
theorem commandCheck_sbox (d a : Word) : commandCheck .sbox d a = widthCheck 48 d := rfl

/-- Settles O22: DIN's check decides the first half, the bank the second; the corner cases are evaluated. -/
theorem sboxCompletes : Obligations.SboxCompletes := by
  refine ⟨rfl, ?accepted, ?overWide, ?completes, ?illegal, by decide, by decide, by decide, by decide, by decide⟩
  case accepted => exact fun s hb hd => exec_of_check hb ((commandCheck_sbox _ _).trans (widthCheck_of_lt hd))
  case overWide => exact fun s hb hd => exec_of_error .widthError hb ((commandCheck_sbox _ _).trans (widthCheck_of_ge hd))
  case completes => exact fun s hf hd => exec_in_flight .sbox hf ((commandCheck_sbox _ _).trans (widthCheck_of_lt hd))
  case illegal =>
    exact fun w hop hw => decode_illegal_of_noFields hop (by decide) (by decide) (by decide) hw

/-- Each table is as long as its output is wide, and names DES bits of its input (40_primitives.md R116). -/
theorem permRows_tables_valid : ∀ r ∈ permRows, r.2.2.2.length = r.2.2.1 ∧ ∀ t ∈ r.2.2.2, 1 ≤ t ∧ t ≤ r.2.1 := by
  decide

/-- The check of PERMUTE with a table is that of DIN against the table's input width. -/
theorem commandCheck_permute_of_row : ∀ r ∈ permRows, ∀ d a : Word,
    commandCheck (.permute r.1) d a = widthCheck r.2.1 d := by
  simp [permRows, commandCheck, fieldCheck, operandCheck, permWidthIn]

/-- PERMUTE with a selector that has no table is a BAD_TSEL. -/
theorem commandCheck_permute_of_ge {t : BitVec 3} (ht : t.toNat ≥ 6) (d a : Word) :
    commandCheck (.permute t) d a = some .badTsel := by
  simp [commandCheck, fieldCheck, ht]

/-- The result of PERMUTE is the permutation of its selector's table. -/
theorem permuteSel_of_row : ∀ r ∈ permRows, ∀ v : Word,
    permuteSel r.1 v = (permute r.2.2.1 r.2.2.2 (v.setWidth r.2.1)).setWidth 64 := by
  simp [permRows, permuteSel]

/-- Settles O23: the row of the selector gives the check and the result; zeros, ones and the parity bits by the permuter's own
laws. -/
theorem permuteCompletes : Obligations.PermuteCompletes := by
  refine ⟨fun _ => rfl, ?accepted, ?overWide, ?badTsel, ?completes, ?illegal, ?constants, by decide, by decide, ?parity,
    by decide +kernel, by decide +kernel⟩
  case accepted =>
    intro r hr s hb hd
    exact exec_of_check hb ((commandCheck_permute_of_row r hr _ _).trans (widthCheck_of_lt hd))
  case overWide =>
    intro r hr s hb hd
    exact exec_of_error .widthError hb ((commandCheck_permute_of_row r hr _ _).trans (widthCheck_of_ge hd))
  case badTsel => exact fun t ht s hb => exec_of_error .badTsel hb (commandCheck_permute_of_ge ht _ _)
  case completes =>
    intro r hr s hf hd
    rw [exec_in_flight (.permute r.1) hf ((commandCheck_permute_of_row r hr _ _).trans (widthCheck_of_lt hd)), completed,
      permuteSel_of_row r hr, completeDout_eq_doneState]
  case illegal => exact fun w hop hw => decode_illegal_of_permute hop hw
  case constants =>
    intro r hr
    obtain ⟨hlength, hrange⟩ := permRows_tables_valid r hr
    exact ⟨permute_zero _ _, permute_allOnes hlength hrange⟩
  case parity => exact fun v v' h => permute_tablePc1_sameButParity h

end Sys2Proof.Machine
end

section
/-! ROTL and ROTR (40_primitives.md R118, R119, R122, R123). -/

namespace Sys2Proof.Machine

open Sys2Proof.Claims

/-- The checks of a rotation in their order: the width, the amount, the operand. At width 64 no operand is over-wide. -/
theorem commandCheck_rotl (n : BitVec 7) (a : BitVec 6) (d x : Word) :
    commandCheck (.rotl n a) d x =
      if n.toNat = 0 ∨ n.toNat > 64 then some .invalidWidth
      else if a.toNat ≥ n.toNat then some .invalidShift
      else if d.toNat ≥ 2 ^ n.toNat then some .widthError
      else none := by
  by_cases hwidth : n.toNat = 0 ∨ n.toNat > 64
  · simp only [commandCheck, fieldCheck, rotationCheck, if_pos hwidth]
  by_cases hamt : a.toNat ≥ n.toNat
  · simp only [commandCheck, fieldCheck, rotationCheck, if_neg hwidth, if_pos hamt]
  simp only [commandCheck, fieldCheck, rotationCheck, operandCheck, if_neg hwidth, if_neg hamt]
  by_cases hfull : n.toNat < 64
  · simp [hfull, widthCheck, overWide]
  · have hn : n.toNat = 64 := by omega
    simp [hn, d.isLt]

/-- ROTR has the checks of ROTL. -/
theorem commandCheck_rotr (n : BitVec 7) (a : BitVec 6) (d x : Word) :
    commandCheck (.rotr n a) d x = commandCheck (.rotl n a) d x := rfl

/-- A rotation of legal width and amount passes its check with an operand of its width. -/
theorem commandCheck_rotl_eq_none {n : BitVec 7} {a : BitVec 6} {d : Word} (x : Word) (hpos : 1 ≤ n.toNat)
    (hle : n.toNat ≤ 64) (ha : a.toNat < n.toNat) (hd : d.toNat < 2 ^ n.toNat) :
    commandCheck (.rotl n a) d x = none := by
  rw [commandCheck_rotl, if_neg (by omega), if_neg (by omega), if_neg (Nat.not_le.2 hd)]

/-- The first half of a rotation on an idle core, for a command with the checks of a rotation. -/
theorem exec_rotation_idle {i : Instr} {n : BitVec 7} {a : BitVec 6} {s : State} (hb : s.status.busy = false)
    (hi : commandCheck i s.din s.aux = commandCheck (.rotl n a) s.din s.aux) :
    ∃ t, exec i s = .next t ∧
      if n.toNat = 0 ∨ n.toNat > 64 then t = errorState 3 s
      else if a.toNat ≥ n.toNat then t = errorState 4 s
      else if s.din.toNat ≥ 2 ^ n.toNat then t = errorState 5 s
      else latched (latFields i) s t := by
  rw [commandCheck_rotl] at hi
  split_ifs at hi ⊢
  · exact ⟨_, exec_of_error _ hb hi, rfl⟩
  · exact ⟨_, exec_of_error _ hb hi, rfl⟩
  · exact ⟨_, exec_of_error _ hb hi, rfl⟩
  · exact exec_of_check hb hi

/-- Settles O9: the integer formula and the moved bits are laws of the shifter, and an amount not below a legal width is the second
check of ROTL. -/
theorem rotLRotates : Obligations.RotLRotates := by
  refine ⟨?shifter, ?invalidShift⟩
  case shifter =>
    intro v n s _ hn hs hv
    exact ⟨rotL_toNat v hn s, fun j hj => rotL_getLsbD_add_mod hn hv hs hj, rotL_toNat_lt v hn s, rotL_zero hn hv⟩
  case invalidShift =>
    intro n a s hb hpos hle ha
    have hc : commandCheck (.rotl n a) s.din s.aux = some .invalidShift := by
      rw [commandCheck_rotl, if_neg (by omega), if_pos ha]
    exact exec_of_error .invalidShift hb hc

/-- Settles O24: the checks of a rotation decide the first half, the shifter's integer formula is the second. -/
theorem rotlCompletes : Obligations.RotlCompletes := by
  refine ⟨fun _ _ => rfl, ?idle, ?completes, ?illegal, ?identity, ?widthOne, rotL_append_half, by decide⟩
  case idle => exact fun n a s hb => exec_rotation_idle hb rfl
  case completes =>
    intro n a s hf hpos hle ha hd
    rw [exec_in_flight (.rotl n a) hf (commandCheck_rotl_eq_none _ hpos hle ha hd), completed, completeDout_eq_doneState,
      ← rotL_toNat s.latDin hle, BitVec.ofNat_toNat, BitVec.setWidth_eq]
  case illegal => exact fun w hop hw => decode_illegal_of_rotation (.inl hop) hw
  case identity => exact fun v n s _ hn _ hv => ⟨rotL_zero hn hv, rotL_toNat_lt v hn s⟩
  case widthOne =>
    intro a hwf
    have hlt : a.toNat < 1 := by simpa [Instr.wf] using hwf
    exact BitVec.eq_of_toNat_eq (Nat.lt_one_iff.1 hlt)

/-- Settles O25: as ROTL's, with RotR as RotL by the rest of the width. -/
theorem rotrCompletes : Obligations.RotrCompletes := by
  refine ⟨fun _ _ => rfl, ?idle, ?completes, ?illegal, ?rest, fun v => rotR_eq_rotL v (by decide), by decide⟩
  case idle => exact fun n a s hb => exec_rotation_idle hb (commandCheck_rotr n a _ _)
  case completes =>
    intro n a s hf hpos hle ha hd
    have hc : commandCheck (.rotr n a) s.latDin s.latAux = none :=
      (commandCheck_rotr n a _ _).trans (commandCheck_rotl_eq_none _ hpos hle ha hd)
    rw [exec_in_flight (.rotr n a) hf hc, completed, completeDout_eq_doneState, ← rotR_toNat s.latDin hle ha.le, BitVec.ofNat_toNat,
      BitVec.setWidth_eq]
  case illegal => exact fun w hop hw => decode_illegal_of_rotation (.inr hop) hw
  case rest => exact fun v n s _ hn hs hv => ⟨rotR_zero hn hv, fun _ => rotR_eq_rotL v hs.le⟩

end Sys2Proof.Machine
end

section
/-! The key schedule and KEYSCHED (41_key_schedule.md R130 to R133). -/

namespace Sys2Proof.Machine

open Sys2Proof.Claims

/-- The key schedule sees the key through PC-1 alone (41_key_schedule.md R130 step 1). -/
theorem keySchedule_congr_of_pc1 {k k' : Word} (h : permute 56 tablePc1 k = permute 56 tablePc1 k') :
    keySchedule k = keySchedule k' := by
  simp only [keySchedule, keyHalfC, keyHalfD, h]

/-- Keys that differ in parity bits only have one schedule. -/
theorem keySchedule_sameButParity {k k' : Word} (h : sameButParity k k') : keySchedule k = keySchedule k' :=
  keySchedule_congr_of_pc1 (permute_tablePc1_sameButParity h)

/-- A left rotation brings zeros to zeros, whatever its width and amount. -/
theorem rotL_of_zero (m n s : Nat) : rotL (0 : BitVec m) n s = 0 := by
  simp [rotL]

/-- Halves of zeros stay zeros through every rotation, so each round key is zero. -/
theorem roundKeysFrom_zero (l : List Nat) : roundKeysFrom l 0 0 = List.replicate l.length 0 := by
  induction l with
  | nil => rfl
  | cons s rest ih =>
    have hkey : permute 48 tablePc2 ((0 : BitVec 28) ++ (0 : BitVec 28)) = 0 := permute_zero 48 tablePc2
    rw [roundKeysFrom, rotL_of_zero, ih, hkey]
    rfl

/-- The zero key has sixteen zero round keys. -/
theorem keySchedule_zero : keySchedule 0 = List.replicate 16 0 := by
  rw [keySchedule, keyHalfC, keyHalfD, permute_zero]
  exact roundKeysFrom_zero shiftSchedule

/-- KEYSCHED has no field and no operand to check: every key passes (41_key_schedule.md R132). -/
theorem commandCheck_keysched (d a : Word) : commandCheck .keysched d a = none := rfl

/-- KEYSCHED on an idle core is accepted, whatever KEY holds. -/
theorem exec_keysched_idle {s : State} (hb : s.status.busy = false) :
    ∃ t, exec .keysched s = .next t ∧ latched ⟨2, 0, 0, 0⟩ s t :=
  exec_of_check hb (commandCheck_keysched _ _)

/-- KEYSCHED in flight writes the sixteen RK registers together. -/
theorem exec_keysched_in_flight {s : State} (hf : inFlight ⟨2, 0, 0, 0⟩ s) :
    exec .keysched s = .next (completeRk (rkOfKey s.latKey) s) :=
  exec_in_flight .keysched hf (commandCheck_keysched _ _)

/-- Complete of KEYSCHED is Complete of a command that leaves DOUT as it is, with RK written. -/
theorem completeRk_eq_doneState (ks : Vector Word 16) (s : State) :
    completeRk ks s = { doneState s.dout s with rk := ks } := rfl

/-- Settles O14: parity bits do not reach past PC-1, and KEYSCHED checks nothing. -/
theorem parityIsNeverChecked : Obligations.ParityIsNeverChecked :=
  ⟨keySchedule_length, fun _ _ => keySchedule_sameButParity, fun _ => exec_keysched_idle⟩

/-- Settles O20: KEYSCHED checks nothing, so the first half always latches and the second always writes RK; the zero key by
induction over the rounds, the example evaluated. -/
theorem keyschedCompletes : Obligations.KeyschedCompletes := by
  refine ⟨rfl, fun _ => exec_keysched_idle, ?completes, ?illegal, keySchedule_zero, by decide +kernel, by decide +kernel⟩
  case completes =>
    intro s hf
    exact ⟨_, exec_keysched_in_flight hf, rkOfKey_get s.latKey, completeRk_eq_doneState _ s⟩
  case illegal =>
    exact fun w hop hw => decode_illegal_of_noFields hop (by decide) (by decide) (by decide) hw

end Sys2Proof.Machine
end

section
/-! A permutation in two parts (40_primitives.md R117). -/

namespace Sys2Proof.Machine

/-- The parts of a table permute each by itself, the first part into the high bits (40_primitives.md R117). -/
theorem permute_split {n : Nat} (m₁ m₂ : Nat) (table : List Nat) (v : BitVec n) (hl : table.length = m₁ + m₂) :
    permute (m₁ + m₂) table v = permute m₁ (table.take m₁) v ++ permute m₂ (table.drop m₁) v := by
  apply BitVec.eq_of_getLsbD_eq
  intro j hj
  rw [permute_getLsbD_of_length _ _ _ hl hj, BitVec.getLsbD_append]
  split
  next hlow =>
    have hindex : m₁ + (m₂ - 1 - j) = m₁ + m₂ - 1 - j := by omega
    rw [permute_getLsbD_of_length _ _ _ (by simp [hl]) hlow]
    simp [List.getD, List.getElem?_drop, hindex]
  next hhigh =>
    have hindex : m₁ - 1 - (j - m₂) = m₁ + m₂ - 1 - j := by omega
    have hlt : m₁ + m₂ - 1 - j < m₁ := by omega
    rw [permute_getLsbD_of_length _ _ _ (by simp [hl]) (by omega), hindex]
    simp [List.getD, hlt]

end Sys2Proof.Machine
end

section
/-! The Feistel round and ROUND (42_feistel_round.md R140 to R142). -/

namespace Sys2Proof.Machine

open Sys2Proof.Claims

/-- `f(R, K)` by its intermediate values: the expansion `e`, the S-box bank's input `x` and its output `b`. -/
theorem feistelF_of_steps {r p : BitVec 32} {k : BitVec 48} (e x : BitVec 48) (b : BitVec 32) (hexpand : permute 48 tableE r = e)
    (hkey : e ^^^ k = x) (hbank : sboxBank x = b) (hperm : permute 32 tableP b = p) : feistelF r k = p := by
  rw [feistelF, hexpand, hkey, hbank, hperm]

/-- A round by the value of its `f`. -/
theorem feistelRound_of_feistelF {x : Word} {k : BitVec 48} (r f : BitVec 32) (hright : rightHalf x = r)
    (hf : feistelF r k = f) : feistelRound x k = r ++ (leftHalf x ^^^ f) := by
  rw [feistelRound, hright, hf]

/-- The left half of a round's output is the right half of its input (42_feistel_round.md R141). -/
theorem leftHalf_feistelRound (x : Word) (k : BitVec 48) : leftHalf (feistelRound x k) = rightHalf x :=
  leftHalf_append _ _

/-- Zeros expand to zeros, and f of them is not zero. -/
theorem feistelF_zero : feistelF 0 0 = 0xD8D8DBBC :=
  feistelF_of_steps 0 0 0xEFA72C4D (permute_zero 48 tableE) (by decide) (by decide) (by decide)

/-- Ones expand to ones, which a key of ones cancels: f has the value it has on zeros. -/
theorem feistelF_ones : feistelF 0xFFFFFFFF 0xFFFFFFFFFFFF = 0xD8D8DBBC :=
  feistelF_of_steps 0xFFFFFFFFFFFF 0 0xEFA72C4D (by decide) (by decide) (by decide) (by decide)

/-- The f of the first round of the worked example, by the spec's intermediate values. -/
theorem feistelF_example : feistelF 0xF0AAF0AA 0x1B02EFFC7072 = 0x234AA9BB :=
  feistelF_of_steps 0x7A15557A1555 0x6117BA866527 0x5C82B597 (by decide) (by decide) (by decide) (by decide)

/-- IP of the worked example's plaintext, half by half. -/
theorem permute_tableIp_example : permute 64 tableIp (0x0123456789ABCDEF : Word) = 0xCC00CCFFF0AAF0AA := by
  have hleft : permute 32 (tableIp.take 32) (0x0123456789ABCDEF : Word) = 0xCC00CCFF := by decide
  have hright : permute 32 (tableIp.drop 32) (0x0123456789ABCDEF : Word) = 0xF0AAF0AA := by decide
  calc permute 64 tableIp (0x0123456789ABCDEF : Word)
      = permute 32 (tableIp.take 32) (0x0123456789ABCDEF : Word) ++ permute 32 (tableIp.drop 32) (0x0123456789ABCDEF : Word) :=
        permute_split 32 32 tableIp _ rfl
    _ = (0xCC00CCFF : BitVec 32) ++ (0xF0AAF0AA : BitVec 32) := by rw [hleft, hright]
    _ = 0xCC00CCFFF0AAF0AA := by decide

/-- The check of ROUND is that of AUX against 48 bits. -/
theorem commandCheck_round (d a : Word) : commandCheck .round d a = widthCheck 48 a := rfl

/-- ROUND in flight with a 48-bit round key writes one Feistel round of DIN. -/
theorem exec_round_in_flight {s : State} (hf : inFlight ⟨3, 0, 0, 0⟩ s) (ha : s.latAux.toNat < 2 ^ 48) :
    exec .round s = .next (doneState (feistelRound s.latDin (s.latAux.extractLsb' 0 48)) s) :=
  exec_in_flight .round hf ((commandCheck_round _ _).trans (widthCheck_of_lt ha))

/-- Settles O21: AUX's check decides the first half, one Feistel round is the second; the examples go through the values of
their f, and the example's round key is KEYSCHED's. -/
theorem roundCompletes : Obligations.RoundCompletes := by
  obtain ⟨-, -, -, -, -, firstKey, -⟩ := keyschedCompletes
  refine ⟨rfl, ?accepted, ?overWide, fun _ => exec_round_in_flight, ?illegal, feistelF_zero, ?zeros, ?ones,
    leftHalf_feistelRound, permute_tableIp_example, firstKey, ?worked, by decide, by decide, by decide, by decide⟩
  case accepted => exact fun s hb ha => exec_of_check hb ((commandCheck_round _ _).trans (widthCheck_of_lt ha))
  case overWide => exact fun s hb ha => exec_of_error .widthError hb ((commandCheck_round _ _).trans (widthCheck_of_ge ha))
  case illegal =>
    exact fun w hop hw => decode_illegal_of_noFields hop (by decide) (by decide) (by decide) hw
  case zeros => exact (feistelRound_of_feistelF 0 _ (by decide) feistelF_zero).trans (by decide)
  case ones => exact (feistelRound_of_feistelF 0xFFFFFFFF _ (by decide) feistelF_ones).trans (by decide)
  case worked => exact (feistelRound_of_feistelF 0xF0AAF0AA _ (by decide) feistelF_example).trans (by decide)

end Sys2Proof.Machine
end

section
/-! Block encryption and ENCRYPT (43_block_cipher.md R150 to R154). -/

namespace Sys2Proof.Machine

open Sys2Proof.Claims

/-- One round with its key derived inline, by the values after it: the rotated halves of the key and the block
(43_block_cipher.md R151: "the choice is not observable"). -/
theorem foldl_feistelRound_cons {s : Nat} {l : List Nat} {c d : BitVec 28} {x y : Word} (c' d' : BitVec 28) (x' : Word)
    (hround : rotL c 28 s = c' ∧ rotL d 28 s = d' ∧ feistelRound x (permute 48 tablePc2 (c' ++ d')) = x')
    (hrest : (roundKeysFrom l c' d').foldl feistelRound x' = y) :
    (roundKeysFrom (s :: l) c d).foldl feistelRound x = y := by
  obtain ⟨rfl, rfl, rfl⟩ := hround
  exact hrest

/-- Encryption sees the key through its schedule alone (43_block_cipher.md R150). -/
theorem encrypt_congr_of_keySchedule (x : Word) {k k' : Word} (h : keySchedule k = keySchedule k') :
    encrypt x k = encrypt x k' := by
  rw [encrypt, encrypt, sixteenRounds, sixteenRounds, h]

/-- Textbook DES is ENCRYPT's function after IP (43_block_cipher.md R153). -/
theorem textbookDes_eq_encrypt (p k : Word) : textbookDes p k = encrypt (permute 64 tableIp p) k := rfl

/-- On a block that IP fixes, textbook DES and ENCRYPT's function agree. -/
theorem textbookDes_of_ip_fixed {p : Word} (h : permute 64 tableIp p = p) (k : Word) : textbookDes p k = encrypt p k := by
  rw [textbookDes_eq_encrypt, h]

/-- IP fixes the block of ones. -/
theorem permute_tableIp_allOnes : permute 64 tableIp (BitVec.allOnes 64) = BitVec.allOnes 64 :=
  permute_allOnes rfl (by decide)

/-- ENCRYPT has no field and no operand to check: "both operands are full 64-bit values" (43_block_cipher.md R152). -/
theorem commandCheck_encrypt (d a : Word) : commandCheck .encrypt d a = none := rfl

/-- ENCRYPT in flight writes the encryption of the latched operands to DOUT. -/
theorem exec_encrypt_in_flight {s : State} (hf : inFlight ⟨1, 0, 0, 0⟩ s) :
    exec .encrypt s = .next (doneState (encrypt s.latDin s.latKey) s) :=
  exec_in_flight .encrypt hf (commandCheck_encrypt _ _)

/-- The engine's step with a command in flight is that command's meaning. -/
theorem engineComplete_of_inFlight (i : Instr) {s : State} (hf : inFlight (latFields i) s) : engineComplete s = exec i s := by
  obtain ⟨-, hl⟩ := hf
  rw [engineComplete, hl, latInstr_latFields]

/-- The engine's step with ENCRYPT in flight is the same Complete. -/
theorem engineComplete_encrypt_in_flight {s : State} (hf : inFlight ⟨1, 0, 0, 0⟩ s) :
    engineComplete s = .next (doneState (encrypt s.latDin s.latKey) s) :=
  (engineComplete_of_inFlight .encrypt hf).trans (exec_encrypt_in_flight hf)

/-- Settles O37: DOUT is a function of the two latched operands, whatever else the state holds. -/
theorem encryptDependsOnItsOperandsOnly : Obligations.EncryptDependsOnItsOperandsOnly := by
  intro s s' hf hf' hdin hkey
  refine ⟨_, _, engineComplete_encrypt_in_flight hf, engineComplete_encrypt_in_flight hf', ?_⟩
  simp only [doneState, hdin, hkey]

-- A round and the 64-entry table FP each nest one call per entry of a table, which is more than the default depth takes.
set_option maxRecDepth 1000 in
/-- The corner case and the example of R152, by the values after each round. Each round is checked as a lemma of its own, so
that the evaluation of one is not held in memory while the next is checked. -/
theorem encrypt_zero_and_example :
    encrypt 0 0 = 0x8CA64DE9C1B123A7 ∧ encrypt 0xFFFFFFFFFFFFFFFF 0xAAAAAAAAAAAAAAAA = 0xF32823B6FC574774 := by
  constructor
  · have hc : keyHalfC 0 = 0 := by as_aux_lemma => decide
    have hd : keyHalfD 0 = 0 := by as_aux_lemma => decide
    have hrounds : sixteenRounds 0 0 = 0xBBEA0DC21C2087FC := by
      rw [sixteenRounds, keySchedule, hc, hd]
      refine foldl_feistelRound_cons 0 0 0x00000000D8D8DBBC (by as_aux_lemma => decide) ?_
      refine foldl_feistelRound_cons 0 0 0xD8D8DBBCE73AED4F (by as_aux_lemma => decide) ?_
      refine foldl_feistelRound_cons 0 0 0xE73AED4F5BFA6BA6 (by as_aux_lemma => decide) ?_
      refine foldl_feistelRound_cons 0 0 0x5BFA6BA65E45E257 (by as_aux_lemma => decide) ?_
      refine foldl_feistelRound_cons 0 0 0x5E45E2578B197BE0 (by as_aux_lemma => decide) ?_
      refine foldl_feistelRound_cons 0 0 0x8B197BE0FDE9894A (by as_aux_lemma => decide) ?_
      refine foldl_feistelRound_cons 0 0 0xFDE9894A19DF0B5C (by as_aux_lemma => decide) ?_
      refine foldl_feistelRound_cons 0 0 0x19DF0B5C907A13F0 (by as_aux_lemma => decide) ?_
      refine foldl_feistelRound_cons 0 0 0x907A13F088190C50 (by as_aux_lemma => decide) ?_
      refine foldl_feistelRound_cons 0 0 0x88190C5025D1517C (by as_aux_lemma => decide) ?_
      refine foldl_feistelRound_cons 0 0 0x25D1517CF3EF917E (by as_aux_lemma => decide) ?_
      refine foldl_feistelRound_cons 0 0 0xF3EF917E96E39712 (by as_aux_lemma => decide) ?_
      refine foldl_feistelRound_cons 0 0 0x96E397125A5DA34A (by as_aux_lemma => decide) ?_
      refine foldl_feistelRound_cons 0 0 0x5A5DA34A058CAD0A (by as_aux_lemma => decide) ?_
      refine foldl_feistelRound_cons 0 0 0x058CAD0ABBEA0DC2 (by as_aux_lemma => decide) ?_
      refine foldl_feistelRound_cons 0 0 0xBBEA0DC21C2087FC (by as_aux_lemma => decide) ?_
      rfl
    rw [encrypt, hrounds]
    as_aux_lemma => decide
  · have hc : keyHalfC 0xAAAAAAAAAAAAAAAA = 0xFF00FF0 := by as_aux_lemma => decide
    have hd : keyHalfD 0xAAAAAAAAAAAAAAAA = 0xFF00FF0 := by as_aux_lemma => decide
    have hrounds : sixteenRounds 0xFFFFFFFFFFFFFFFF 0xAAAAAAAAAAAAAAAA = 0x199F126DF1B9F865 := by
      rw [sixteenRounds, keySchedule, hc, hd]
      refine foldl_feistelRound_cons 0xFE01FE1 0xFE01FE1 0xFFFFFFFFBFA4A5EF (by as_aux_lemma => decide) ?_
      refine foldl_feistelRound_cons 0xFC03FC3 0xFC03FC3 0xBFA4A5EF21783C36 (by as_aux_lemma => decide) ?_
      refine foldl_feistelRound_cons 0xF00FF0F 0xF00FF0F 0x21783C3659824228 (by as_aux_lemma => decide) ?_
      refine foldl_feistelRound_cons 0xC03FC3F 0xC03FC3F 0x59824228686356E5 (by as_aux_lemma => decide) ?_
      refine foldl_feistelRound_cons 0x00FF0FF 0x00FF0FF 0x686356E595D67FA8 (by as_aux_lemma => decide) ?_
      refine foldl_feistelRound_cons 0x03FC3FC 0x03FC3FC 0x95D67FA82F387B4D (by as_aux_lemma => decide) ?_
      refine foldl_feistelRound_cons 0x0FF0FF0 0x0FF0FF0 0x2F387B4D6FC6545A (by as_aux_lemma => decide) ?_
      refine foldl_feistelRound_cons 0x3FC3FC0 0x3FC3FC0 0x6FC6545ABF0C2E5C (by as_aux_lemma => decide) ?_
      refine foldl_feistelRound_cons 0x7F87F80 0x7F87F80 0xBF0C2E5CC758089F (by as_aux_lemma => decide) ?_
      refine foldl_feistelRound_cons 0xFE1FE01 0xFE1FE01 0xC758089FA2022490 (by as_aux_lemma => decide) ?_
      refine foldl_feistelRound_cons 0xF87F807 0xF87F807 0xA20224909353AE65 (by as_aux_lemma => decide) ?_
      refine foldl_feistelRound_cons 0xE1FE01F 0xE1FE01F 0x9353AE651C567C09 (by as_aux_lemma => decide) ?_
      refine foldl_feistelRound_cons 0x87F807F 0x87F807F 0x1C567C09AD039E96 (by as_aux_lemma => decide) ?_
      refine foldl_feistelRound_cons 0x1FE01FE 0x1FE01FE 0xAD039E96692CB5EB (by as_aux_lemma => decide) ?_
      refine foldl_feistelRound_cons 0x7F807F8 0x7F807F8 0x692CB5EB199F126D (by as_aux_lemma => decide) ?_
      refine foldl_feistelRound_cons 0xFF00FF0 0xFF00FF0 0x199F126DF1B9F865 (by as_aux_lemma => decide) ?_
      rfl
    rw [encrypt, hrounds]
    as_aux_lemma => decide

/-- Settles O19: ENCRYPT checks nothing, so the first half always latches and the second always writes DOUT; parity bits stop at
the key schedule; the corner case and the example are evaluated, and textbook DES agrees on both blocks since IP fixes them. -/
theorem encryptCompletes : Obligations.EncryptCompletes := by
  obtain ⟨hzero, hexample⟩ := encrypt_zero_and_example
  refine ⟨rfl, ?accepted, fun _ => exec_encrypt_in_flight, ?illegal, ?parity, hzero, ?textbookZero, hexample, ?textbookOnes⟩
  case accepted => exact fun s hb => exec_of_check hb (commandCheck_encrypt _ _)
  case illegal =>
    exact fun w hop hw => decode_illegal_of_noFields hop (by decide) (by decide) (by decide) hw
  case parity => exact fun x k k' h => encrypt_congr_of_keySchedule x (keySchedule_sameButParity h)
  case textbookZero => exact (textbookDes_of_ip_fixed (permute_zero 64 tableIp) _).trans hzero
  case textbookOnes => exact (textbookDes_of_ip_fixed permute_tableIp_allOnes _).trans hexample

end Sys2Proof.Machine
end

section
/-! A request on an idle core, from the decoder to the latch or the error ending (60_exceptions.md R160, R161, R163). -/

namespace Sys2Proof.Machine

open Sys2Proof.Claims

/-- The decoder answers a command where the word selects its row and the row's fields are legal (30_encoding.md R75). -/
theorem decode_eq_ok_iff (w : Word) (i : Instr) : decode w = .ok i ↔ decodeRow w = some i ∧ fieldCheck i = none := by
  unfold decode
  cases decodeRow w with
  | none => simp
  | some j =>
    constructor
    · intro h
      cases hf : fieldCheck j with
      | none =>
        simp only [hf] at h
        cases h
        exact ⟨rfl, hf⟩
      | some e => simp [hf] at h
    · rintro ⟨⟨⟩, hf⟩
      simp only [hf]

/-- The decoder answers an error where no row is selected or the selected row refuses its fields (30_encoding.md R75). -/
theorem decode_eq_error_iff (w : Word) (e : ErrKind) :
    decode w = .error e ↔
      (decodeRow w = none ∧ e = .illegalCmd) ∨ ∃ i, decodeRow w = some i ∧ fieldCheck i = some e := by
  unfold decode
  cases decodeRow w with
  | none => simp [eq_comm]
  | some j => cases hf : fieldCheck j <;> simp [hf]

/-- A field error comes before the operand check (60_exceptions.md R166). -/
theorem commandCheck_of_fieldError {i : Instr} {e : ErrKind} (hf : fieldCheck i = some e) (d a : Word) :
    commandCheck i d a = some e := by
  simp [commandCheck, hf]

/-- With legal fields the check of a command is its operand check. -/
theorem commandCheck_of_fieldCheck {i : Instr} (hf : fieldCheck i = none) (d a : Word) :
    commandCheck i d a = operandCheck i d a := by
  simp [commandCheck, hf]

section IdleRequest

variable {w : Word} {s : State} {i : Instr} {e : ErrKind}

/-- A request for a word that selects a row runs the row's command, on an idle core. -/
theorem hostWrite_cmd_of_row (hb : s.status.busy = false) (hrow : decodeRow w = some i) : hostWrite 0 w s = exec i s := by
  simp [hostWrite_cmd', commandRequest, hb, hrow]

/-- On an idle core a word the decoder refuses ends in the decoder's error. -/
theorem hostWrite_cmd_of_decodeError (hb : s.status.busy = false) (hd : decode w = .error e) :
    hostWrite 0 w s = .next (errorState (errCode e) s) := by
  rcases (decode_eq_error_iff w e).1 hd with ⟨hrow, rfl⟩ | ⟨i, hrow, hf⟩
  · exact commandRequest_of_no_row hb hrow
  · exact (hostWrite_cmd_of_row hb hrow).trans (exec_of_error e hb (commandCheck_of_fieldError hf _ _))

/-- On an idle core a decoded command with an over-wide operand ends in the operand check's error. -/
theorem hostWrite_cmd_of_operandError (hb : s.status.busy = false) (hd : decode w = .ok i)
    (ho : operandCheck i s.din s.aux = some e) : hostWrite 0 w s = .next (errorState (errCode e) s) := by
  obtain ⟨hrow, hf⟩ := (decode_eq_ok_iff w i).1 hd
  exact (hostWrite_cmd_of_row hb hrow).trans (exec_of_error e hb ((commandCheck_of_fieldCheck hf _ _).trans ho))

/-- On an idle core a decoded command whose operands pass their check is latched. -/
theorem hostWrite_cmd_accepted (hb : s.status.busy = false) (hd : decode w = .ok i)
    (ho : operandCheck i s.din s.aux = none) : ∃ t, hostWrite 0 w s = .next t ∧ latched (latFields i) s t := by
  obtain ⟨hrow, hf⟩ := (decode_eq_ok_iff w i).1 hd
  rw [hostWrite_cmd_of_row hb hrow]
  exact exec_of_check hb ((commandCheck_of_fieldCheck hf _ _).trans ho)

end IdleRequest

/-- Settles O28: the decoder's answer, then the operand check's, each names the one ending of the request. -/
theorem acceptanceOfARequest : Obligations.AcceptanceOfARequest := by
  intro w s hb
  cases hd : decode w with
  | error e => exact ⟨_, hostWrite_cmd_of_decodeError hb hd, rfl⟩
  | ok i =>
    cases ho : operandCheck i s.din s.aux with
    | some e =>
      simp only [ho]
      exact ⟨_, hostWrite_cmd_of_operandError hb hd ho, rfl⟩
    | none =>
      simp only [ho]
      exact hostWrite_cmd_accepted hb hd ho

/-- An acceptance without error leaves ERR clear. -/
theorem latched_err {c : LatCmd} {s t : State} (h : latched c s t) : t.status.err = false := by
  rw [latched] at h
  rw [h]

/-- Where a request on an idle core leaves ERR set, it ended in an error that the decoder or the operand check raised. -/
theorem hostWrite_cmd_of_err {w : Word} {s t : State} (hb : s.status.busy = false) (h : hostWrite 0 w s = .next t)
    (herr : t.status.err = true) :
    ∃ e, t = errorState (errCode e) s ∧
      (decode w = .error e ∨ ∃ i, decode w = .ok i ∧ operandCheck i s.din s.aux = some e) := by
  cases hd : decode w with
  | error e =>
    cases h.symm.trans (hostWrite_cmd_of_decodeError hb hd)
    exact ⟨e, rfl, .inl rfl⟩
  | ok i =>
    cases ho : operandCheck i s.din s.aux with
    | some e =>
      cases h.symm.trans (hostWrite_cmd_of_operandError hb hd ho)
      exact ⟨e, rfl, .inr ⟨i, rfl, ho⟩⟩
    | none =>
      obtain ⟨u, hu, hlat⟩ := hostWrite_cmd_accepted hb hd ho
      cases h.symm.trans hu
      exact absurd herr (by simp [latched_err hlat])

/-- Settles O29: a set ERR comes from an error ending, which changes STATUS alone. -/
theorem errorsArePrecise : Obligations.ErrorsArePrecise := by
  intro w s t hb h herr
  obtain ⟨e, rfl, hraised⟩ := hostWrite_cmd_of_err hb h herr
  exact ⟨rfl, rfl, rfl, e, rfl, hraised⟩

/-- A width check answers no error or WIDTH_ERROR. -/
theorem widthCheck_eq_none_or (n : Nat) (v : Word) : widthCheck n v = none ∨ widthCheck n v = some .widthError :=
  (Nat.lt_or_ge v.toNat (2 ^ n)).imp widthCheck_of_lt widthCheck_of_ge

/-- A width check is a WIDTH_ERROR exactly where the operand is over-wide. -/
theorem widthCheck_eq_widthError_iff (n : Nat) (v : Word) : widthCheck n v = some .widthError ↔ v.toNat ≥ 2 ^ n := by
  simp [widthCheck, overWide]

/-- The operand check of a rotation answers no error or WIDTH_ERROR. -/
theorem operandCheck_rotl_eq_none_or (n : BitVec 7) (m : BitVec 6) (d a : Word) :
    operandCheck (.rotl n m) d a = none ∨ operandCheck (.rotl n m) d a = some .widthError := by
  rw [operandCheck]
  split_ifs
  · exact widthCheck_eq_none_or _ _
  · exact .inl rfl

/-- The operand check of a rotation is a WIDTH_ERROR below width 64 only, where DIN is over-wide. -/
theorem operandCheck_rotl_eq_widthError_iff (n : BitVec 7) (m : BitVec 6) (d a : Word) :
    operandCheck (.rotl n m) d a = some .widthError ↔ n.toNat < 64 ∧ d.toNat ≥ 2 ^ n.toNat := by
  rw [operandCheck, ite_eq_iff, widthCheck_eq_widthError_iff]
  simp

/-- ROTR has the operand check of ROTL. -/
theorem operandCheck_rotr (n : BitVec 7) (m : BitVec 6) (d a : Word) :
    operandCheck (.rotr n m) d a = operandCheck (.rotl n m) d a := rfl

/-- The operand check answers no error or WIDTH_ERROR (60_exceptions.md R163). -/
theorem operandCheck_eq_none_or (i : Instr) (d a : Word) :
    operandCheck i d a = none ∨ operandCheck i d a = some .widthError := by
  cases i with
  | encrypt => exact .inl rfl
  | keysched => exact .inl rfl
  | round => exact widthCheck_eq_none_or _ _
  | sbox => exact widthCheck_eq_none_or _ _
  | permute t => exact widthCheck_eq_none_or _ _
  | rotl n m => exact operandCheck_rotl_eq_none_or n m d a
  | rotr n m => rw [operandCheck_rotr]; exact operandCheck_rotl_eq_none_or n m d a

/-- The input widths of the tables as the list of 30_encoding.md R72. -/
theorem permWidthIn_eq_getD : ∀ t : BitVec 3, permWidthIn t = [64, 56, 32, 32, 64, 64].getD t.toNat 64 := by
  decide

/-- Settles O30: each command's check is a width check of one operand or none, and it is what decides a decoded request. -/
theorem operandCheckByWidth : Obligations.OperandCheckByWidth := by
  intro i d a _
  refine ⟨operandCheck_eq_none_or i d a, ?overWide, ?acceptance⟩
  case overWide =>
    cases i with
    | encrypt => simp [operandCheck]
    | keysched => simp [operandCheck]
    | round => exact widthCheck_eq_widthError_iff _ _
    | sbox => exact widthCheck_eq_widthError_iff _ _
    | permute t => rw [operandCheck, widthCheck_eq_widthError_iff, permWidthIn_eq_getD]
    | rotl n m => exact operandCheck_rotl_eq_widthError_iff n m d a
    | rotr n m => rw [operandCheck_rotr, operandCheck_rotl_eq_widthError_iff]
  case acceptance =>
    intro w s hb hd
    rcases operandCheck_eq_none_or i s.din s.aux with ho | ho
    · simpa only [ho, if_true] using hostWrite_cmd_accepted hb hd ho
    · exact ⟨_, hostWrite_cmd_of_operandError hb hd ho, by simp [ho, errCode]⟩

end Sys2Proof.Machine
end

section
/-! A request while BUSY = 1, and what clears OVR (60_exceptions.md R164). -/

namespace Sys2Proof.Machine

open Sys2Proof.Claims

/-- A request while BUSY = 1 is an overrun, whatever the word. -/
theorem hostWrite_cmd_of_busy (w : Word) {s : State} (hb : s.status.busy = true) :
    hostWrite 0 w s = .next (overrun s) := by
  simp [hostWrite_cmd', commandRequest, hb]

/-- A request that clears OVR finds the core idle. -/
theorem commandRequest_clears_ovr {w : Word} {s t : State} (h : commandRequest w s = .next t)
    (hclear : t.status.ovr = false) : s.status.busy = false := by
  rcases commandRequest_next h with ⟨-, rfl⟩ | ⟨hb, -⟩
  · exact absurd hclear (by simp [flagsOverrun])
  · exact hb

/-- A host line that clears OVR is a request on an idle core or Reset. -/
theorem hostLine_clears_ovr {l : HostLine} {s t : State} (h : hostLine l s = .next t) (hset : s.status.ovr = true)
    (hclear : t.status.ovr = false) : (s.status.busy = false ∧ writesIndex 0 l) ∨ l = .reset := by
  have hne : t.status ≠ s.status := fun heq => by simp [heq, hset] at hclear
  rcases hostLine_next h with ⟨w, hw, hreq⟩ | ⟨_, -, rfl⟩ | ⟨_, -, rfl⟩ | ⟨_, -, rfl⟩ | ⟨_, _, _, rfl, -⟩ | ⟨hl, -⟩
  · exact .inl ⟨commandRequest_clears_ovr hreq hclear, hw⟩
  · exact absurd rfl hne
  · exact absurd rfl hne
  · exact absurd rfl hne
  · exact absurd rfl hne
  · exact .inr hl

/-- Settles O31: a busy core answers a request by an overrun; Complete keeps OVR, so a step that clears it is a host line. -/
theorem busyRequestIsDropped : Obligations.BusyRequestIsDropped := by
  refine ⟨fun w s => hostWrite_cmd_of_busy w, ?_⟩
  intro s t h hset hclear
  rcases step_next h with ⟨-, -, i, -, -, rfl⟩ | ⟨-, -, rfl⟩ | ⟨he, l, rest, hp, hl⟩
  · exact absurd hclear (by simp [completed_status, hset])
  · exact absurd hclear (by simp [hset])
  · rcases hostLine_clears_ovr hl hset hclear with ⟨hb, hw⟩ | rfl
    · exact ⟨he, .inl ⟨hb, (requestNext_iff_writeNext s).2 (writeNext_of_writesIndex hp hw)⟩⟩
    · exact ⟨he, .inr ⟨rest, hp⟩⟩

end Sys2Proof.Machine
end

section
/-! Complete from a state of the invariant (60_exceptions.md R165). -/

namespace Sys2Proof.Machine

open Sys2Proof.Claims

/-- The engine moves only while BUSY = 1. -/
theorem busy_of_engineTurn {s : State} (h : engineTurn s = true) : s.status.busy = true := by
  rw [engineTurn, Bool.and_eq_true] at h
  exact h.1

/-- In a busy state of the invariant Complete performs the latched command, whose checks were made at acceptance. -/
theorem engineComplete_of_latchLegal {s : State} (hlegal : LatchLegal s) (hb : s.status.busy = true) :
    ∃ i, latInstr s.latCmd = some i ∧ engineComplete s = .next (completed i s) := by
  obtain ⟨i, hl, hc⟩ := hlegal hb
  have hf : inFlight (latFields i) s := ⟨hb, hl⟩
  exact ⟨i, hl ▸ latInstr_latFields i, (engineComplete_of_inFlight i hf).trans (exec_in_flight i hf hc)⟩

/-- Complete changes nothing but DOUT, RK, BUSY and DONE. -/
theorem completed_frame (i : Instr) (s : State) :
    completed i s = { s with
      dout := (completed i s).dout
      rk := (completed i s).rk
      status := { busy := false, done := true, err := s.status.err, ovr := s.status.ovr, errcode := s.status.errcode } } := by
  cases i <;> rfl

/-- Settles O32: the invariant's latch holds a checked command, so Complete is that command's effect; the OP names the command. -/
theorem completeCannotFail : Obligations.CompleteCannotFail := by
  refine ⟨fun _ => busy_of_engineTurn, ?_⟩
  intro s hinv hb
  obtain ⟨i, hi, hcomplete⟩ := engineComplete_of_latchLegal hinv.latch hb
  have named : ∀ j, latInstr s.latCmd = some j → i = j := fun j hj => Option.some.inj (hi.symm.trans hj)
  refine ⟨_, hcomplete, completed_frame i s, ?encrypt, ?keysched, ?round, ?sbox, ?permute, ?rotl, ?rotr⟩
  case encrypt =>
    intro hop
    obtain rfl := named .encrypt (by simp [latInstr, hop])
    exact ⟨rfl, rfl⟩
  case keysched =>
    intro hop
    obtain rfl := named .keysched (by simp [latInstr, hop])
    exact ⟨rfl, rkOfKey_get s.latKey⟩
  case round =>
    intro hop
    obtain rfl := named .round (by simp [latInstr, hop])
    exact ⟨rfl, rfl⟩
  case sbox =>
    intro hop
    obtain rfl := named .sbox (by simp [latInstr, hop])
    exact ⟨rfl, rfl⟩
  case permute =>
    intro hop
    obtain rfl := named (.permute s.latCmd.tsel) (by simp [latInstr, hop])
    refine ⟨rfl, fun r hr htsel => ?_⟩
    rw [← permuteSel_of_row r hr, htsel]
    rfl
  case rotl =>
    intro hop
    obtain rfl := named (.rotl s.latCmd.width s.latCmd.amt) (by simp [latInstr, hop])
    exact ⟨rfl, rfl⟩
  case rotr =>
    intro hop
    obtain rfl := named (.rotr s.latCmd.width s.latCmd.amt) (by simp [latInstr, hop])
    exact ⟨rfl, rfl⟩

end Sys2Proof.Machine
end


section
/-! Operand writes while a command is in flight, and Reset (70_reset_and_hazards.md R180, R185). -/

namespace Sys2Proof.Machine

open Sys2Proof.Claims

/-- The effect of a command at Complete reads the latch, never DIN, KEY or AUX. -/
theorem completed_with_operands (i : Instr) (s : State) (d k a : Word) :
    completed i { s with din := d, key := k, aux := a } = { completed i s with din := d, key := k, aux := a } := by
  cases i <;> rfl

/-- A busy core completes the latched command where its latched operands pass the check. -/
theorem engineComplete_of_latInstr {i : Instr} {s : State} (hb : s.status.busy = true) (hi : latInstr s.latCmd = some i)
    (hc : commandCheck i s.latDin s.latAux = none) : engineComplete s = .next (completed i s) := by
  rw [engineComplete, hi]
  exact (exec_eq_runCommand i s).trans (runCommand_busy hb hi hc)

/-- Complete commutes with a change of DIN, KEY and AUX while busy. -/
theorem engineComplete_with_operands {s u : State} (hb : s.status.busy = true) (h : engineComplete s = .next u)
    (d k a : Word) :
    engineComplete { s with din := d, key := k, aux := a } = .next { u with din := d, key := k, aux := a } := by
  obtain ⟨i, hi, hc, rfl⟩ := engineComplete_next hb h
  rw [← completed_with_operands]
  exact engineComplete_of_latInstr hb hi hc

/-- A host write of DIN, KEY or AUX changes the operand registers only, and reads back the word written. -/
theorem hostWrite_operand {idx : BitVec 5} (hidx : idx = 2 ∨ idx = 3 ∨ idx = 4) (v : Word) (s : State) :
    ∃ d k a, hostWrite idx v s = .next { s with din := d, key := k, aux := a } ∧
      hostRead idx { s with din := d, key := k, aux := a } = (v, { s with din := d, key := k, aux := a }) := by
  rcases hidx with rfl | rfl | rfl
  · exact ⟨v, s.key, s.aux, rfl, hostRead_of_not_inFlight (r := .din) rfl rfl⟩
  · exact ⟨s.din, v, s.aux, rfl, hostRead_of_not_inFlight (r := .key) rfl rfl⟩
  · exact ⟨s.din, s.key, v, rfl, hostRead_of_not_inFlight (r := .aux) rfl rfl⟩

/-- Settles O36: the write changes the operand registers only, and Complete commutes with such a change. -/
theorem operandWritesWhileBusyAreSafe : Obligations.OperandWritesWhileBusyAreSafe := by
  intro s v idx hb hidx
  obtain ⟨d, k, a, hwrite, hread⟩ := hostWrite_operand hidx v s
  refine ⟨_, hwrite, hread, rfl, rfl, rfl, rfl, rfl, ?_⟩
  intro u hu
  exact ⟨_, engineComplete_with_operands hb hu d k a, rfl, rfl, rfl, rfl, rfl, rfl⟩

/-- The engine has no turn while BUSY = 0. -/
theorem engineTurn_of_idle {s : State} (hb : s.status.busy = false) : engineTurn s = false := by
  simp [engineTurn, hb]

/-- Settles O45: Reset is `resetCore`, which clears BUSY, so no Complete is enabled after it. -/
theorem resetFromEveryState : Obligations.ResetFromEveryState :=
  fun s => ⟨resetCore s, rfl, engineTurn_of_idle (resetCore_status s ▸ rfl), rfl⟩

end Sys2Proof.Machine
end

section
set_option linter.unusedTactic false in
example : True := by sleep 16000; trivial
end

section
/-! A command in flight: what a host line leaves of it (20_memory.md R60; 60_exceptions.md R164). -/

namespace Sys2Proof.Machine

/-- The command in flight in `s` is still in flight in `t`: BUSY and the latch hold, no result is written, and the model's
counters of its latency (log 2) stand. -/
structure StillInFlight (s t : State) : Prop where
  busy : t.status.busy = true
  done : t.status.done = s.status.done
  latCmd : t.latCmd = s.latCmd
  latDin : t.latDin = s.latDin
  latKey : t.latKey = s.latKey
  latAux : t.latAux = s.latAux
  dout : t.dout = s.dout
  rk : t.rk = s.rk
  waited : t.waited = s.waited
  accepted : t.accepted = s.accepted

/-- A host line other than Reset leaves a command in flight: a request is dropped, and the other lines write operand registers
or the host's own fields. -/
theorem hostLine_stillInFlight {l : HostLine} {s t : State} (hb : s.status.busy = true) (h : hostLine l s = .next t)
    (hl : l ≠ .reset) : StillInFlight s t := by
  rcases hostLine_next h with ⟨_, -, hreq⟩ | ⟨_, -, rfl⟩ | ⟨_, -, rfl⟩ | ⟨_, -, rfl⟩ | ⟨_, _, _, rfl, -⟩ | ⟨hreset, -⟩
  · rcases commandRequest_next hreq with ⟨-, rfl⟩ | ⟨hidle, -⟩
    · exact ⟨hb, rfl, rfl, rfl, rfl, rfl, rfl, rfl, rfl, rfl⟩
    · simp [hb] at hidle
  · exact ⟨hb, rfl, rfl, rfl, rfl, rfl, rfl, rfl, rfl, rfl⟩
  · exact ⟨hb, rfl, rfl, rfl, rfl, rfl, rfl, rfl, rfl, rfl⟩
  · exact ⟨hb, rfl, rfl, rfl, rfl, rfl, rfl, rfl, rfl, rfl⟩
  · exact ⟨hb, rfl, rfl, rfl, rfl, rfl, rfl, rfl, rfl, rfl⟩
  · exact absurd hreset hl

end Sys2Proof.Machine
end

section
/-! The decoder and the encoder by the fields of a word (30_encoding.md R70, R74, R78). -/

namespace Sys2Proof.Machine

open Sys2Proof.Claims

/-- The four fields of a word (30_encoding.md R70), in the form in which the latch holds those of a command. -/
def wordFields (w : Word) : LatCmd := ⟨opOf w, fieldTsel w, fieldWidth w, fieldAmt w⟩

/-- Equal fields, one by one. -/
theorem wordFields_eq_iff (w : Word) (c : LatCmd) :
    wordFields w = c ↔ opOf w = c.op ∧ fieldTsel w = c.tsel ∧ fieldWidth w = c.width ∧ fieldAmt w = c.amt := by
  obtain ⟨op, tsel, width, amt⟩ := c
  rw [wordFields, LatCmd.mk.injEq]

/-- Two values with one field agree under the field's mask. -/
theorem and_mask_congr {w w' : Word} {start len : Nat} (hle : start + len ≤ 64)
    (h : w.extractLsb' start len = w'.extractLsb' start len) :
    w &&& ((BitVec.allOnes len).setWidth 64 <<< start) = w' &&& ((BitVec.allOnes len).setWidth 64 <<< start) := by
  rw [(extractLsb'_eq_iff_and_mask w start len _ hle).1 h, (extractLsb'_eq_iff_and_mask w' start len _ hle).1 rfl]

/-- A word is its reserved bits and its four fields: the masks of R70 cover all 64 bits. -/
theorem word_ext {w w' : Word} (hrsv : w &&& rsvMask = w' &&& rsvMask) (hfields : wordFields w = wordFields w') :
    w = w' := by
  obtain ⟨hop, htsel, hwidth, hamt⟩ := (wordFields_eq_iff w _).1 hfields
  have hcover : ∀ x : Word, x = x &&& rsvMask ||| x &&& (BitVec.allOnes 4).setWidth 64 <<< 0 |||
      x &&& (BitVec.allOnes 3).setWidth 64 <<< 8 ||| x &&& (BitVec.allOnes 7).setWidth 64 <<< 16 |||
      x &&& (BitVec.allOnes 6).setWidth 64 <<< 24 := by
    intro x
    simp only [← BitVec.and_or_distrib_left]
    exact BitVec.and_allOnes.symm
  rw [hcover w, hcover w', hrsv, and_mask_congr (by decide) hop, and_mask_congr (by decide) htsel,
    and_mask_congr (by decide) hwidth, and_mask_congr (by decide) hamt]

/-- A search answers by its first element, or goes on with the rest. -/
theorem map_find?_cons {α β : Type} (p : α → Bool) (f : α → β) (a : α) (l : List α) :
    ((a :: l).find? p).map f = if p a then some (f a) else (l.find? p).map f := by
  cases h : p a <;> simp [h]

/-- The decoder is a search in the table of R74. -/
theorem decodeRow_eq_find (w : Word) :
    decodeRow w = (codeRows.find? fun r => rowHit r.1 r.2.1 w).map fun r => r.2.2 w := by
  simp only [codeRows, map_find?_cons, List.find?_nil, Option.map_none]
  rfl

/-- Every row's mask holds the four bits of OP. -/
theorem row_mask_op : ∀ r ∈ codeRows, r.2.1.extractLsb' 0 4 = BitVec.allOnes 4 := by
  decide

/-- A row compares the word's OP with its own. -/
theorem opOf_of_row {w : Word} {r : Word × Word × (Word → Instr)} (hr : r ∈ codeRows) (h : w &&& r.2.1 = r.1) :
    opOf w = opOf r.1 := by
  rw [← h, opOf, opOf, BitVec.extractLsb'_and, row_mask_op r hr, BitVec.and_allOnes]

/-- No two rows of the table have one OP, so a word matches one row at most. -/
theorem row_unique {w : Word} {r r' : Word × Word × (Word → Instr)} (hr : r ∈ codeRows) (hr' : r' ∈ codeRows)
    (h : w &&& r.2.1 = r.1) (h' : w &&& r'.2.1 = r'.1) : r = r' := by
  have hnodup : (codeRows.map fun r => opOf r.1).Nodup := by decide
  exact List.inj_on_of_nodup_map hnodup hr hr' ((opOf_of_row hr h).symm.trans (opOf_of_row hr' h'))

/-- A word that matches a row selects that row's command. -/
theorem decodeRow_of_row {w : Word} {r : Word × Word × (Word → Instr)} (hr : r ∈ codeRows) (h : w &&& r.2.1 = r.1) :
    decodeRow w = some (r.2.2 w) := by
  rw [decodeRow_eq_find]
  cases hfind : codeRows.find? fun r => rowHit r.1 r.2.1 w with
  | none => exact absurd (List.find?_eq_none.1 hfind r hr) (by simp [rowHit, h])
  | some r' =>
    have hhit : w &&& r'.2.1 = r'.1 := by simpa [rowHit] using List.find?_some hfind
    rw [row_unique hr (List.mem_of_find?_eq_some hfind) h hhit]
    rfl

/-- Settles O3: the decoder searches the table, and the OP tells its rows apart. -/
theorem rowsDoNotOverlap : Obligations.RowsDoNotOverlap := by
  refine fun w => ⟨fun r hr => decodeRow_of_row hr, fun hnone => ?_, fun r hr r' hr' => row_unique hr hr'⟩
  have hfind : (codeRows.find? fun r => rowHit r.1 r.2.1 w) = none :=
    List.find?_eq_none.2 fun r hr => by simpa [rowHit] using hnone r hr
  rw [decodeRow_eq_find, hfind]
  rfl

/-- The fields of a word that matches a row without fields. -/
theorem wordFields_of_noFields {w c : Word} {op : BitVec 4} (hc : op.setWidth 64 = c)
    (h : rowHit c 0xFFFFFFFFFFFFFFFF w = true) : w &&& rsvMask = 0 ∧ wordFields w = ⟨op, 0, 0, 0⟩ := by
  obtain ⟨hop, hrsv, hzero⟩ := (rowHit_noFields_iff hc w).1 h
  exact ⟨hrsv, (wordFields_eq_iff w _).2 ⟨hop, hzero⟩⟩

/-- The fields of a word that matches the row with TSEL. -/
theorem wordFields_of_tsel {w c : Word} {op : BitVec 4} (hc : op.setWidth 64 = c)
    (h : rowHit c 0xFFFFFFFFFFFFF8FF w = true) : w &&& rsvMask = 0 ∧ wordFields w = ⟨op, fieldTsel w, 0, 0⟩ := by
  obtain ⟨hop, hrsv, hzero⟩ := (rowHit_tsel_iff hc w).1 h
  exact ⟨hrsv, (wordFields_eq_iff w _).2 ⟨hop, rfl, hzero⟩⟩

/-- The fields of a word that matches a row with WIDTH and AMT. -/
theorem wordFields_of_rotation {w c : Word} {op : BitVec 4} (hc : op.setWidth 64 = c)
    (h : rowHit c 0xFFFFFFFFC080FFFF w = true) :
    w &&& rsvMask = 0 ∧ wordFields w = ⟨op, 0, fieldWidth w, fieldAmt w⟩ := by
  obtain ⟨hop, hrsv, hzero⟩ := (rowHit_rotation_iff hc w).1 h
  exact ⟨hrsv, (wordFields_eq_iff w _).2 ⟨hop, hzero, rfl, rfl⟩⟩

/-- A word that selects a command has clear reserved bits, and the fields the latch holds of the command: a field the command
does not use is 0. -/
theorem wordFields_of_decodeRow {w : Word} {i : Instr} (h : decodeRow w = some i) :
    w &&& rsvMask = 0 ∧ wordFields w = latFields i := by
  unfold decodeRow at h
  split_ifs at h with h1 h2 h3 h4 h5 h6 h7 <;> cases h
  · exact wordFields_of_noFields rfl h1
  · exact wordFields_of_noFields rfl h2
  · exact wordFields_of_noFields rfl h3
  · exact wordFields_of_noFields rfl h4
  · exact wordFields_of_tsel rfl h5
  · exact wordFields_of_rotation rfl h6
  · exact wordFields_of_rotation rfl h7

/-- The latch fields tell the commands apart. -/
theorem latFields_injective : Function.Injective latFields := fun i j h =>
  Option.some.inj ((latInstr_latFields i).symm.trans (h ▸ latInstr_latFields j))

/-- A word with a command's fields and clear reserved bits is no illegal word. -/
theorem decodeRow_ne_none_of_wordFields {w : Word} {i : Instr} (hrsv : w &&& rsvMask = 0)
    (h : wordFields w = latFields i) : decodeRow w ≠ none := by
  obtain ⟨hop, htsel, hwidth, hamt⟩ := (wordFields_eq_iff w _).1 h
  rw [ne_eq, decodeRow_eq_none_iff, hrsv, hop, htsel, hwidth, hamt]
  cases i <;> simp [latFields]

/-- The decoder by the fields: a word selects a command exactly where its reserved bits are clear and its fields are the
command's. -/
theorem decodeRow_eq_some_iff (w : Word) (i : Instr) :
    decodeRow w = some i ↔ w &&& rsvMask = 0 ∧ wordFields w = latFields i := by
  refine ⟨wordFields_of_decodeRow, ?_⟩
  rintro ⟨hrsv, hfields⟩
  obtain ⟨j, hj⟩ := Option.ne_none_iff_exists'.1 (decodeRow_ne_none_of_wordFields hrsv hfields)
  rw [hj, latFields_injective ((wordFields_of_decodeRow hj).2.symm.trans hfields)]

/-- The word with these fields and clear reserved bits (30_encoding.md R70). -/
def fieldsWord (c : LatCmd) : Word :=
  c.op.setWidth 64 <<< 0 ||| c.tsel.setWidth 64 <<< 8 ||| c.width.setWidth 64 <<< 16 ||| c.amt.setWidth 64 <<< 24

/-- The word of a command is that of its fields. -/
theorem encode_eq_fieldsWord (i : Instr) : encode i = fieldsWord (latFields i) := by
  cases i <;> simp [encode, latFields, fieldsWord]

/-- A field lies within its own mask. -/
theorem field_and_mask {len : Nat} (start : Nat) (v : BitVec len) :
    v.setWidth 64 <<< start &&& (BitVec.allOnes len).setWidth 64 <<< start = v.setWidth 64 <<< start := by
  rw [← BitVec.shiftLeft_and_distrib, ← BitVec.setWidth_and, BitVec.and_allOnes]

/-- A field stays clear of a mask that its own mask stays clear of. -/
theorem field_and_eq_zero {len start : Nat} {m : Word} (h : (BitVec.allOnes len).setWidth 64 <<< start &&& m = 0)
    (v : BitVec len) : v.setWidth 64 <<< start &&& m = 0 := by
  rw [← field_and_mask, BitVec.and_assoc, h]
  exact BitVec.and_zero

/-- The fields of R70 do not overlap each other or the reserved bits, so each reads back from the word. -/
theorem fieldsWord_fields (c : LatCmd) : fieldsWord c &&& rsvMask = 0 ∧ wordFields (fieldsWord c) = c := by
  rw [wordFields_eq_iff, opOf, fieldTsel, fieldWidth, fieldAmt, extractLsb'_eq_iff_and_mask _ 0 4 _ (by decide),
    extractLsb'_eq_iff_and_mask _ 8 3 _ (by decide), extractLsb'_eq_iff_and_mask _ 16 7 _ (by decide),
    extractLsb'_eq_iff_and_mask _ 24 6 _ (by decide)]
  simp (disch := decide) only [fieldsWord, BitVec.and_or_distrib_right, field_and_eq_zero, field_and_mask,
    BitVec.ofNat_eq_ofNat, BitVec.or_zero, BitVec.zero_or, and_self]

/-- Settles O1: each word of the list is evaluated by the decoder. -/
theorem specWordsDecode : Obligations.SpecWordsDecode := by
  unfold Obligations.SpecWordsDecode
  decide

/-- Settles O2: a word is its reserved bits and its fields, which decoding reads and encoding writes. -/
theorem decodeInvertsEncode : Obligations.DecodeInvertsEncode := by
  have hrow : ∀ i, decodeRow (encode i) = some i := fun i =>
    encode_eq_fieldsWord i ▸ (decodeRow_eq_some_iff _ i).2 (fieldsWord_fields (latFields i))
  have hword : ∀ w i, decodeRow w = some i → encode i = w := by
    intro w i h
    obtain ⟨hrsv, hfields⟩ := wordFields_of_decodeRow h
    obtain ⟨hrsv', hfields'⟩ := fieldsWord_fields (latFields i)
    rw [encode_eq_fieldsWord]
    exact word_ext (hrsv'.trans hrsv.symm) (hfields'.trans hfields.symm)
  refine ⟨hrow, fun i hwf => ?_, hword, fun w i h => ?_⟩
  · exact (decode_eq_ok_iff _ i).2 ⟨hrow i, (fieldCheck_eq_none i).2 hwf⟩
  · obtain ⟨hi, hf⟩ := (decode_eq_ok_iff w i).1 h
    exact ⟨(fieldCheck_eq_none i).1 hf, hword w i hi⟩

end Sys2Proof.Machine
end

section
/-! The invariant: at reset, and over every step (10_state.md R27, R30; 60_exceptions.md R165). -/

namespace Sys2Proof.Machine

open Sys2Proof.Claims

/-- The ten legal flag combinations (10_state.md R30). -/
def legalFlags : List Status :=
  [⟨false, false, false, false, 0⟩, ⟨true, false, false, false, 0⟩, ⟨false, true, false, false, 0⟩,
   ⟨true, false, false, true, 0⟩, ⟨false, true, false, true, 0⟩, ⟨false, true, true, false, 1⟩,
   ⟨false, true, true, false, 2⟩, ⟨false, true, true, false, 3⟩, ⟨false, true, true, false, 4⟩,
   ⟨false, true, true, false, 5⟩]

section Flags

variable {f : Status}

/-- The flags at reset are legal. -/
theorem statusLegal_reset : StatusLegal State.reset.status :=
  ⟨by decide, by decide, by decide, by decide⟩

/-- Complete keeps the flags legal: while busy no error is set. -/
theorem statusLegal_flagsComplete (hf : StatusLegal f) (hb : f.busy = true) : StatusLegal (flagsComplete f) := by
  obtain ⟨-, herr, hcode⟩ := hf.busy hb
  exact ⟨by simp, by simp [herr], by simp [hcode], by simp [herr]⟩

/-- An overrun keeps the flags legal: OVR may be set while busy. -/
theorem statusLegal_flagsOverrun (hf : StatusLegal f) (hb : f.busy = true) : StatusLegal (flagsOverrun f) := by
  obtain ⟨hdone, herr, hcode⟩ := hf.busy hb
  exact ⟨by simp [hdone, herr, hcode], by simp [herr], by simp [hcode], by simp [hb, herr]⟩

/-- An error ending on an idle core leaves legal flags, for every error a request can raise. -/
theorem statusLegal_flagsError {e : ErrKind} (he : e ≠ .invalidTable) (hb : f.busy = false) :
    StatusLegal (flagsError e (flagsCleared f)) :=
  ⟨by simp [hb], by simpa using errCode_range he, by simp, by simp⟩

/-- An acceptance without error leaves legal flags. -/
theorem statusLegal_flagsBusy (f : Status) : StatusLegal (flagsBusy (flagsCleared f)) :=
  ⟨by simp, by simp, by simp, by simp⟩

end Flags

/-- A request keeps the flags legal. -/
theorem commandRequest_statusLegal {w : Word} {s t : State} (hs : StatusLegal s.status)
    (h : commandRequest w s = .next t) : StatusLegal t.status := by
  rcases commandRequest_next h with ⟨hb, rfl⟩ | ⟨hb, ⟨e, he, rfl⟩ | ⟨i, -, rfl⟩⟩
  · exact statusLegal_flagsOverrun hs hb
  · exact statusLegal_flagsError he hb
  · exact statusLegal_flagsBusy s.status

/-- A host line keeps the flags legal. -/
theorem hostLine_statusLegal {l : HostLine} {s t : State} (hs : StatusLegal s.status) (h : hostLine l s = .next t) :
    StatusLegal t.status := by
  rcases hostLine_next h with ⟨_, -, hreq⟩ | ⟨_, -, rfl⟩ | ⟨_, -, rfl⟩ | ⟨_, -, rfl⟩ | ⟨_, _, _, rfl, -⟩ | ⟨-, rfl⟩
  · exact commandRequest_statusLegal hs hreq
  · exact hs
  · exact hs
  · exact hs
  · exact hs
  · exact statusLegal_reset

/-- A step keeps the flags legal. -/
theorem step_statusLegal {s t : State} (hs : StatusLegal s.status) (h : step s = .next t) : StatusLegal t.status := by
  rcases step_next h with ⟨hb, -, i, -, -, rfl⟩ | ⟨-, -, rfl⟩ | ⟨-, l, rest, -, hl⟩
  · exact completed_status i s ▸ statusLegal_flagsComplete hs hb
  · exact hs
  · exact hostLine_statusLegal (s := takeLine rest s) hs hl

/-- The codes of R30. -/
theorem errcode_of_range : ∀ c : BitVec 4, 1 ≤ c.toNat → c.toNat ≤ 5 → c = 1 ∨ c = 2 ∨ c = 3 ∨ c = 4 ∨ c = 5 := by
  decide

/-- Legal flags are one of the ten combinations: busy, idle without error, or an error with its code. -/
theorem mem_legalFlags_of_statusLegal {f : Status} (hf : StatusLegal f) : f ∈ legalFlags := by
  obtain ⟨hbusy, herr, hnoErr, hovr⟩ := hf
  obtain ⟨busy, done, err, ovr, code⟩ := f
  simp only at hbusy herr hnoErr hovr
  cases err with
  | true =>
    obtain ⟨rfl, hlow, hhigh⟩ := herr rfl
    obtain rfl : busy = false := by simpa using hbusy
    obtain rfl : ovr = false := by simpa using hovr
    rcases errcode_of_range code hlow hhigh with rfl | rfl | rfl | rfl | rfl <;> decide
  | false =>
    obtain rfl := hnoErr rfl
    have hten : ∀ busy done ovr : Bool, (busy = true → done = false) → (ovr = true → busy = true ∨ done = true) →
        ⟨busy, done, false, ovr, 0⟩ ∈ legalFlags := by decide
    exact hten busy done ovr (fun h => (hbusy h).1) (fun h => (hovr h).2)

/-- Each of the ten combinations is legal. -/
theorem statusLegal_of_mem_legalFlags : ∀ f ∈ legalFlags, StatusLegal f := by
  have hall : ∀ f ∈ legalFlags,
      (f.busy = true → f.done = false ∧ f.err = false ∧ f.errcode = 0) ∧
      (f.err = true → f.done = true ∧ 1 ≤ f.errcode.toNat ∧ f.errcode.toNat ≤ 5) ∧
      (f.err = false → f.errcode = 0) ∧
      (f.ovr = true → f.err = false ∧ (f.busy = true ∨ f.done = true)) := by decide
  intro f hf
  obtain ⟨hbusy, herr, hnoErr, hovr⟩ := hall f hf
  exact ⟨hbusy, herr, hnoErr, hovr⟩

/-- The STATUS words of the ten combinations (10_state.md R30). -/
theorem statusWord_legalFlags :
    legalFlags.map statusWord = [0x0, 0x1, 0x2, 0x9, 0xA, 0x106, 0x206, 0x306, 0x406, 0x506] := by
  decide

/-- Settles O51: each change of the flags keeps them legal, and the legal flags are ten. -/
theorem statusStaysLegal : Obligations.StatusStaysLegal := by
  refine ⟨statusLegal_reset, fun _ _ => step_statusLegal, fun w => ?_⟩
  rw [← statusWord_legalFlags, List.mem_map]
  constructor
  · rintro ⟨f, hf, hw⟩
    exact ⟨f, mem_legalFlags_of_statusLegal hf, hw⟩
  · rintro ⟨f, hf, hw⟩
    exact ⟨f, statusLegal_of_mem_legalFlags f hf, hw⟩

/-- The round keys KEYSCHED writes have 48 bits. -/
theorem rkOfKey_get_lt (k : Word) (i : Fin 16) : ((rkOfKey k).get i).toNat < 2 ^ 48 := by
  rw [rkOfKey_get, BitVec.toNat_setWidth_of_le (by decide)]
  exact BitVec.isLt _

/-- On an idle core nothing is asked of the latch. -/
theorem latchLegal_of_idle {s : State} (hb : s.status.busy = false) : LatchLegal s := by
  intro h
  simp [hb] at h

/-- Settles O50: all flags are 0, no command is in flight, the registers are 0 and no variable is assigned. -/
theorem invariantAtReset : Obligations.InvariantAtReset where
  status := statusLegal_reset
  latch := latchLegal_of_idle rfl
  rk := fun i => by simp [State.reset]
  vars := rfl

/-- Complete keeps the invariant: the core is idle then, and round keys have 48 bits. -/
theorem completed_machineInv {s : State} (hs : MachineInv s) (hb : s.status.busy = true) (i : Instr) :
    MachineInv (completed i s) where
  status := completed_status i s ▸ statusLegal_flagsComplete hs.status hb
  latch := latchLegal_of_idle (by simp [completed_status])
  rk := by
    rcases completed_cases i s with ⟨-, h⟩ | ⟨-, v, h⟩ <;> rw [h]
    · exact rkOfKey_get_lt s.latKey
    · exact hs.rk
  vars := by
    rcases completed_cases i s with ⟨-, h⟩ | ⟨-, v, h⟩ <;> rw [h] <;> exact hs.vars

/-- A request keeps the invariant: the latch is loaded with a checked command, or kept. -/
theorem commandRequest_machineInv {w : Word} {s t : State} (hs : MachineInv s) (h : commandRequest w s = .next t) :
    MachineInv t := by
  have hstatus := commandRequest_statusLegal hs.status h
  rcases commandRequest_next h with ⟨hb, rfl⟩ | ⟨hb, ⟨e, -, rfl⟩ | ⟨i, hc, rfl⟩⟩
  · exact ⟨hstatus, fun _ => hs.latch hb, hs.rk, hs.vars⟩
  · exact ⟨hstatus, latchLegal_of_idle hb, hs.rk, hs.vars⟩
  · exact ⟨hstatus, fun _ => ⟨i, rfl, hc⟩, hs.rk, hs.vars⟩

/-- A host line keeps the invariant. -/
theorem hostLine_machineInv {l : HostLine} {s t : State} (hs : MachineInv s) (h : hostLine l s = .next t) :
    MachineInv t := by
  rcases hostLine_next h with ⟨_, -, hreq⟩ | ⟨_, -, rfl⟩ | ⟨_, -, rfl⟩ | ⟨_, -, rfl⟩ | ⟨_, _, _, rfl, hv⟩ | ⟨-, rfl⟩
  · exact commandRequest_machineInv hs hreq
  · exact ⟨hs.status, hs.latch, hs.rk, hs.vars⟩
  · exact ⟨hs.status, hs.latch, hs.rk, hs.vars⟩
  · exact ⟨hs.status, hs.latch, hs.rk, hs.vars⟩
  · exact ⟨hs.status, hs.latch, hs.rk, hv hs.vars⟩
  · exact ⟨invariantAtReset.status, latchLegal_of_idle rfl, invariantAtReset.rk, hs.vars⟩

/-- Taking the next line from the program keeps the invariant. -/
theorem takeLine_machineInv {s : State} (hs : MachineInv s) (rest : List HostLine) : MachineInv (takeLine rest s) :=
  ⟨hs.status, hs.latch, hs.rk, hs.vars⟩

/-- Settles O52: Complete, a host line and an idle host each keep the invariant. -/
theorem stepKeepsInvariant : Obligations.StepKeepsInvariant := by
  intro s t hs h
  rcases step_next h with ⟨hb, -, i, -, -, rfl⟩ | ⟨-, -, rfl⟩ | ⟨-, l, rest, -, hl⟩
  · exact completed_machineInv hs hb i
  · exact hs
  · exact hostLine_machineInv (takeLine_machineInv hs rest) hl

end Sys2Proof.Machine
end

section
/-! The outcomes of a step (20_memory.md R59, R56; 60_exceptions.md R165). -/

namespace Sys2Proof.Machine

open Sys2Proof.Claims

/-- The engine's turn is its Complete. -/
theorem step_of_engineTurn {s : State} (h : engineTurn s = true) : step s = engineComplete s := by
  rw [step, oneStep, if_pos h]

/-- A step that is not the engine's is the host's. -/
theorem step_of_not_engineTurn {s : State} (h : engineTurn s = false) : step s = hostStep s := by
  simp [step, oneStep, h]

/-- The host's step is its next line. -/
theorem hostStep_cons {s : State} {l : HostLine} {rest : List HostLine} (hp : s.program = l :: rest) :
    hostStep s = hostLine l (takeLine rest s) := by
  simp [hostStep, hp]

/-- A host with no line to issue leaves the state as it is. -/
theorem hostStep_nil {s : State} (hp : s.program = []) : hostStep s = .next s := by
  simp [hostStep, hp]

/-- The outcomes of a step from a state of the invariant: a next state, or on the host's turn a bus access refused in one of
two ways. -/
theorem step_outcome {s : State} (hs : MachineInv s) :
    (∃ t, step s = .next t) ∨
      ∃ r, step s = .refused r ∧ engineTurn s = false ∧ (∃ l rest, s.program = l :: rest ∧ isBusLine l = true) ∧
        (r = .partialAccess ∨ r = .outsideWindow) := by
  cases he : engineTurn s with
  | true =>
    obtain ⟨i, -, hcomplete⟩ := engineComplete_of_latchLegal hs.latch (busy_of_engineTurn he)
    exact .inl ⟨_, (step_of_engineTurn he).trans hcomplete⟩
  | false =>
    rw [step_of_not_engineTurn he]
    cases hp : s.program with
    | nil => exact .inl ⟨s, hostStep_nil hp⟩
    | cons l rest =>
      rw [hostStep_cons hp]
      rcases hostLine_outcome l (takeLine rest s) with hnext | ⟨r, hrefused, hname, hbus⟩
      · exact .inl hnext
      · refine .inr ⟨r, hrefused, rfl, ⟨l, rest, rfl, ?_⟩, hname⟩
        rcases hbus with ⟨_, _, rfl⟩ | ⟨_, _, _, rfl⟩ <;> rfl

/-- Settles O53: of the two outcomes of a step neither is a fault, and the refusal needs the host's turn and a bus line. -/
theorem stepsNeverFault : Obligations.StepsNeverFault := by
  intro s hs
  rcases step_outcome hs with ⟨t, ht⟩ | ⟨r, hr, hturn, hline, hname⟩
  · exact ⟨fun f => by simp [ht], fun r => by simp [ht], fun _ => ⟨t, ht⟩⟩
  · refine ⟨fun f => by simp [hr], ?_, ?_⟩
    · intro r' hr'
      cases hr.symm.trans hr'
      exact ⟨hturn, hline, hname⟩
    · rintro (hengine | hnoBus)
      · simp [hturn] at hengine
      · obtain ⟨l, rest, hp, hbus⟩ := hline
        simp [hnoBus l rest hp] at hbus

end Sys2Proof.Machine
end

section
/-! A step of the machine by the agent that moves (20_memory.md R59; 60_exceptions.md R160, R166). -/

namespace Sys2Proof.Machine

open Sys2Proof.Claims

/-- A request for a word that selects a row runs the row's command, on an idle core. -/
theorem hostLine_request {w : Word} {s : State} {i : Instr} (hb : s.status.busy = false) (hrow : decodeRow w = some i) :
    hostLine (.wr 0 (.lit w)) s = exec i s :=
  hostWrite_cmd_of_row hb hrow

/-- A step with such a request runs the command on the state with the line taken. -/
theorem step_request {s : State} {w : Word} {rest : List HostLine} {i : Instr} (hb : s.status.busy = false)
    (hp : s.program = .wr 0 (.lit w) :: rest) (hrow : decodeRow w = some i) : step s = exec i (takeLine rest s) :=
  (step_idle hb hp).trans (hostLine_request (s := takeLine rest s) hb hrow)

/-- Settles O5: the engine moves on its turn, else the host issues its next line. -/
theorem stepRunsDecodedCommand : Obligations.StepRunsDecodedCommand := by
  refine ⟨fun _ _ _ _ => step_request, ?engine, ?host, ?nothing⟩
  case engine =>
    intro s i he hi
    rw [step_of_engineTurn he, engineComplete, hi]
  case host => exact fun s l rest he hp => (step_of_not_engineTurn he).trans (hostStep_cons hp)
  case nothing => exact fun s hb hp => (step_of_not_engineTurn (engineTurn_of_idle hb)).trans (hostStep_nil hp)

/-- Settles O6: the placed word is the next line of an idle core. -/
theorem placedWordRunsNext : Obligations.PlacedWordRunsNext := by
  intro s nbits w i hrow
  exact step_request (s := s.withFetchWord nbits w) rfl rfl hrow

/-- Where the host has a line to issue, the engine's turn is decided by the free latency. -/
theorem engineTurn_busy_cons {s : State} {l : HostLine} {rest : List HostLine} (hb : s.status.busy = true)
    (hp : s.program = l :: rest) : engineTurn s = decide (Config.latency s.accepted ≤ s.waited) := by
  simp [engineTurn, hb, hp]

/-- Settles O40: Complete where the latency has passed; before it, a request while busy is an overrun. -/
theorem requestAndCompleteInEitherOrder : Obligations.RequestAndCompleteInEitherOrder := by
  intro s w rest hb hp
  have hturn := engineTurn_busy_cons hb hp
  by_cases hlat : Config.latency s.accepted ≤ s.waited
  · rw [if_pos hlat, step_of_engineTurn (hturn.trans (decide_eq_true hlat))]
  · rw [if_neg hlat, step_of_not_engineTurn (hturn.trans (decide_eq_false hlat)), hostStep_cons hp]
    exact hostWrite_cmd_of_busy w (s := takeLine rest s) hb

end Sys2Proof.Machine
end

section
/-! What a command and a step leave unchanged, and who writes each register (10_state.md section 3; 60_exceptions.md R160, R165). -/

namespace Sys2Proof.Machine

open Sys2Proof.Claims

/-- Settles O26: the acceptance is an error ending or the latch, and Complete writes DOUT or RK. -/
theorem commandFrame : Obligations.CommandFrame := by
  intro i s t h
  rcases exec_next h with ⟨hb, rfl⟩ | ⟨hb, -, -, rfl⟩
  · rcases accept_cases i s with ⟨e, -, ha⟩ | ⟨-, ha⟩ <;> rw [ha]
    · exact ⟨rfl, rfl, rfl, rfl, rfl, rfl, .inl rfl, .inl rfl, .inl ⟨rfl, rfl, rfl, rfl, rfl, rfl⟩, by simp [hb]⟩
    · exact ⟨rfl, rfl, rfl, rfl, rfl, rfl, .inl rfl, .inl rfl, .inr ⟨hb, rfl⟩, by simp [hb]⟩
  · rcases completed_cases i s with ⟨hi, hc⟩ | ⟨hi, v, hc⟩ <;> rw [hc]
    · exact ⟨rfl, rfl, rfl, rfl, rfl, rfl, .inl rfl, .inr ⟨hb, hi⟩, .inl ⟨rfl, rfl, rfl, rfl, rfl, rfl⟩,
        fun _ => ⟨rfl, rfl, rfl⟩⟩
    · exact ⟨rfl, rfl, rfl, rfl, rfl, rfl, .inr ⟨hb, hi⟩, .inl rfl, .inl ⟨rfl, rfl, rfl, rfl, rfl, rfl⟩,
        fun _ => ⟨rfl, rfl, rfl⟩⟩

end Sys2Proof.Machine
end

section
/-! Both halves of a command, the first error of a request, and the writers of each register (60_exceptions.md R160, R165, R166). -/

namespace Sys2Proof.Machine

open Sys2Proof.Claims

/-- The state after an acceptance without error holds the operands of the request in its latch. -/
theorem exec_twice {i : Instr} {s : State} (hb : s.status.busy = false) (hc : commandCheck i s.din s.aux = none) :
    exec i s = .next (latchCommand i (clearFlags s)) ∧
      exec i (latchCommand i (clearFlags s)) = .next (completed i (latchCommand i (clearFlags s))) := by
  refine ⟨?_, exec_in_flight i ⟨rfl, rfl⟩ hc⟩
  rw [exec_eq_runCommand, runCommand_idle hb, accept, hc]

/-- A command that writes DOUT, accepted on an idle core and completed, gives its result on the operands of the request. -/
theorem exec_twice_doneState {i : Instr} {s : State} {v : Word} (hb : s.status.busy = false)
    (hc : commandCheck i s.din s.aux = none)
    (hv : completed i (latchCommand i (clearFlags s)) = doneState v (latchCommand i (clearFlags s))) :
    ∃ t, exec i s = .next t ∧ exec i t = .next (doneState v t) := by
  obtain ⟨hfirst, hsecond⟩ := exec_twice hb hc
  exact ⟨_, hfirst, hsecond.trans (congrArg _ hv)⟩

/-- The legal ranges of a rotation (30_encoding.md R73). -/
theorem rotl_wf_iff (n : BitVec 7) (a : BitVec 6) :
    (Instr.rotl n a).wf = true ↔ 1 ≤ n.toNat ∧ n.toNat ≤ 64 ∧ a.toNat < n.toNat := by
  simp [Instr.wf, and_assoc]

/-- Settles O27: the first half latches the operand registers, the second computes on the latch. -/
theorem twoHalvesGiveTheResult : Obligations.TwoHalvesGiveTheResult := by
  intro s hb
  refine ⟨?encrypt, ?keysched, ?round, ?sbox, ?permute, ?rotations⟩
  case encrypt => exact exec_twice_doneState hb (commandCheck_encrypt _ _) rfl
  case keysched =>
    obtain ⟨hfirst, hsecond⟩ := exec_twice (i := .keysched) hb (commandCheck_keysched _ _)
    exact ⟨_, _, hfirst, hsecond, rfl, rfl⟩
  case round =>
    intro ha
    refine exec_twice_doneState hb ((commandCheck_round _ _).trans (widthCheck_of_lt ha)) ?_
    rw [BitVec.setWidth_eq_extractLsb' (by decide)]
    rfl
  case sbox => exact fun hd => exec_twice_doneState hb ((commandCheck_sbox _ _).trans (widthCheck_of_lt hd)) rfl
  case permute =>
    intro r hr hd
    refine exec_twice_doneState hb ((commandCheck_permute_of_row r hr _ _).trans (widthCheck_of_lt hd)) ?_
    rw [← permuteSel_of_row r hr]
    rfl
  case rotations =>
    intro n a hwf hd
    obtain ⟨hpos, hle, ha⟩ := (rotl_wf_iff n a).1 hwf
    have hc := commandCheck_rotl_eq_none s.aux hpos hle ha hd
    exact ⟨exec_twice_doneState hb hc rfl, exec_twice_doneState hb ((commandCheck_rotr n a _ _).trans hc) rfl⟩

/-- A refused word leaves the code of the decoder's error. -/
theorem errcode_of_decodeError {w : Word} {s t : State} {e : ErrKind} (hb : s.status.busy = false)
    (h : hostWrite 0 w s = .next t) (hd : decode w = .error e) : t.status.errcode = errCode e := by
  cases h.symm.trans (hostWrite_cmd_of_decodeError hb hd)
  rfl

/-- No field check raises WIDTH_ERROR. -/
theorem fieldCheck_ne_widthError (i : Instr) : fieldCheck i ≠ some .widthError := by
  have hrot : ∀ n a, rotationCheck n a ≠ some .widthError := by
    intro n a
    unfold rotationCheck
    split_ifs <;> simp
  cases i with
  | permute t => simp only [fieldCheck]; split_ifs <;> simp
  | rotl n a => exact hrot n a
  | rotr n a => exact hrot n a
  | _ => simp [fieldCheck]

/-- The decoder does not raise WIDTH_ERROR. -/
theorem decode_ne_widthError (w : Word) : decode w ≠ .error .widthError := by
  intro h
  rcases (decode_eq_error_iff w _).1 h with ⟨-, he⟩ | ⟨i, -, hf⟩
  · cases he
  · exact fieldCheck_ne_widthError i hf

/-- Code 5 is the code of WIDTH_ERROR alone. -/
theorem errCode_eq_five {e : ErrKind} (h : errCode e = 5) : e = .widthError := by
  revert h
  cases e <;> decide

/-- The errors of a rotation's fields (30_encoding.md R75). -/
theorem fieldCheck_of_rotation {i : Instr} {n : BitVec 7} {a : BitVec 6} (hi : i = .rotl n a ∨ i = .rotr n a) :
    fieldCheck i = rotationCheck n a := by
  rcases hi with rfl | rfl <;> rfl

/-- Settles O33: the decoder's errors come first, the operand check is made where the word decodes. -/
theorem firstErrorIsReported : Obligations.FirstErrorIsReported := by
  intro w s t hb h
  have refused : ∀ {i e}, decodeRow w = some i → fieldCheck i = some e → t.status.errcode = errCode e :=
    fun hrow hf => errcode_of_decodeError hb h ((decode_eq_error_iff w _).2 (.inr ⟨_, hrow, hf⟩))
  refine ⟨?noRow, ?badTsel, ?rotation, ?width⟩
  case noRow => exact fun hrow => errcode_of_decodeError hb h ((decode_eq_error_iff w _).2 (.inl ⟨hrow, rfl⟩))
  case badTsel => exact fun tsel hrow ht => refused (e := .badTsel) hrow (if_pos ht)
  case rotation =>
    intro n a hrow
    obtain ⟨i, hi, hcheck⟩ : ∃ i, decodeRow w = some i ∧ fieldCheck i = rotationCheck n a := by
      rcases hrow with hrow | hrow <;> exact ⟨_, hrow, rfl⟩
    refine ⟨fun hwidth => ?_, fun hpos hle hamt => ?_⟩
    · exact refused (e := .invalidWidth) hi (hcheck.trans (if_pos hwidth))
    · exact refused (e := .invalidShift) hi (hcheck.trans ((if_neg (by omega)).trans (if_pos hamt)))
  case width =>
    intro hcode
    cases hd : decode w with
    | error e =>
      have he := errCode_eq_five ((errcode_of_decodeError hb h hd).symm.trans hcode)
      exact absurd (he ▸ hd) (decode_ne_widthError w)
    | ok i =>
      refine ⟨i, rfl, (operandCheck_eq_none_or i _ _).resolve_left fun ho => ?_⟩
      obtain ⟨u, hu, hlat⟩ := hostWrite_cmd_accepted hb hd ho
      cases h.symm.trans hu
      rw [latched] at hlat
      rw [hlat] at hcode
      exact absurd (show (0 : BitVec 4) = 5 from hcode) (by decide)

/-- A request writes STATUS and, on an idle core, the latch. -/
theorem commandRequest_frame {w : Word} {s t : State} (h : commandRequest w s = .next t) :
    t.rk = s.rk ∧ t.dout = s.dout ∧ t.din = s.din ∧ t.key = s.key ∧ t.aux = s.aux ∧
      (s.status.busy = true →
        (t.latCmd, t.latDin, t.latKey, t.latAux) = (s.latCmd, s.latDin, s.latKey, s.latAux)) := by
  rcases commandRequest_next h with ⟨-, rfl⟩ | ⟨hb, ⟨e, -, rfl⟩ | ⟨i, -, rfl⟩⟩
  · exact ⟨rfl, rfl, rfl, rfl, rfl, fun _ => rfl⟩
  · exact ⟨rfl, rfl, rfl, rfl, rfl, fun _ => rfl⟩
  · exact ⟨rfl, rfl, rfl, rfl, rfl, by simp [hb]⟩

/-- What the engine writes: Complete writes RK or DOUT, by the latched OP, and no other data register. -/
theorem completed_writers {i : Instr} {s : State} (hi : latInstr s.latCmd = some i) :
    ((completed i s).rk ≠ s.rk → s.latCmd.op = 2) ∧ ((completed i s).dout ≠ s.dout → s.latCmd.op ≠ 2) := by
  rw [ne_eq s.latCmd.op, ← latInstr_keysched hi]
  rcases completed_cases i s with ⟨hk, hc⟩ | ⟨hk, v, hc⟩ <;> rw [hc]
  · exact ⟨fun _ => hk, (absurd rfl ·)⟩
  · exact ⟨(absurd rfl ·), fun _ => hk⟩

/-- What a host line writes: an operand register by its own index, the latch by a request on an idle core, and Reset all. -/
theorem hostLine_writers {l : HostLine} {s t : State} (h : hostLine l s = .next t) :
    (t.rk ≠ s.rk → l = .reset) ∧ (t.dout ≠ s.dout → l = .reset) ∧
    (t.din ≠ s.din → writesIndex 2 l ∨ l = .reset) ∧ (t.key ≠ s.key → writesIndex 3 l ∨ l = .reset) ∧
    (t.aux ≠ s.aux → writesIndex 4 l ∨ l = .reset) ∧
    ((t.latCmd, t.latDin, t.latKey, t.latAux) ≠ (s.latCmd, s.latDin, s.latKey, s.latAux) →
      (s.status.busy = false ∧ writesIndex 0 l) ∨ l = .reset) := by
  rcases hostLine_next h with ⟨_, hw, hreq⟩ | ⟨_, hw, rfl⟩ | ⟨_, hw, rfl⟩ | ⟨_, hw, rfl⟩ | ⟨_, _, _, rfl, -⟩ | ⟨rfl, -⟩
  · obtain ⟨hrk, hdout, hdin, hkey, haux, hlatch⟩ := commandRequest_frame hreq
    refine ⟨(absurd hrk ·), (absurd hdout ·), (absurd hdin ·), (absurd hkey ·), (absurd haux ·), fun hne => .inl ⟨?_, hw⟩⟩
    exact Bool.eq_false_iff.2 fun hb => hne (hlatch hb)
  · exact ⟨(absurd rfl ·), (absurd rfl ·), fun _ => .inl hw, (absurd rfl ·), (absurd rfl ·), (absurd rfl ·)⟩
  · exact ⟨(absurd rfl ·), (absurd rfl ·), (absurd rfl ·), fun _ => .inl hw, (absurd rfl ·), (absurd rfl ·)⟩
  · exact ⟨(absurd rfl ·), (absurd rfl ·), (absurd rfl ·), (absurd rfl ·), fun _ => .inl hw, (absurd rfl ·)⟩
  · exact ⟨(absurd rfl ·), (absurd rfl ·), (absurd rfl ·), (absurd rfl ·), (absurd rfl ·), (absurd rfl ·)⟩
  · exact ⟨fun _ => rfl, fun _ => rfl, fun _ => .inr rfl, fun _ => .inr rfl, fun _ => .inr rfl, fun _ => .inr rfl⟩

/-- Settles O35: the engine writes by the latched OP, the host by its line. -/
theorem registerWriters : Obligations.RegisterWriters := by
  intro s t h
  rcases step_next h with ⟨-, he, i, hi, -, rfl⟩ | ⟨-, -, rfl⟩ | ⟨-, l, rest, hp, hl⟩
  · obtain ⟨hrk, hdout⟩ := completed_writers hi
    rw [completed_frame i s]
    exact ⟨fun h => .inl ⟨he, hrk h⟩, fun h => .inl ⟨he, hdout h⟩, (absurd rfl ·), (absurd rfl ·), (absurd rfl ·),
      (absurd rfl ·)⟩
  · exact ⟨(absurd rfl ·), (absurd rfl ·), (absurd rfl ·), (absurd rfl ·), (absurd rfl ·), (absurd rfl ·)⟩
  · obtain ⟨hrk, hdout, hdin, hkey, haux, hlatch⟩ := hostLine_writers hl
    have reset : l = .reset → resetNext s := fun hreset => ⟨rest, hreset ▸ hp⟩
    have write : ∀ {idx}, writesIndex idx l ∨ l = .reset → writeNext idx s ∨ resetNext s :=
      Or.imp (writeNext_of_writesIndex hp) reset
    exact ⟨fun h => .inr (reset (hrk h)), fun h => .inr (reset (hdout h)), fun h => write (hdin h),
      fun h => write (hkey h), fun h => write (haux h),
      fun h => (hlatch h).imp (fun ⟨hb, hw⟩ => ⟨hb, writeNext_of_writesIndex hp hw⟩) reset⟩

/-- On an idle core a host line that is no request and no Reset keeps STATUS, DOUT and RK. -/
theorem hostLine_quiet {l : HostLine} {s t : State} (h : hostLine l s = .next t) (hw : ¬ writesIndex 0 l)
    (hl : l ≠ .reset) : t.status = s.status ∧ t.dout = s.dout ∧ t.rk = s.rk := by
  obtain ⟨hrk, hdout, -⟩ := hostLine_writers h
  exact ⟨(hostLine_status h).resolve_right (not_or.2 ⟨hw, hl⟩), not_ne_iff.1 (mt hdout hl), not_ne_iff.1 (mt hrk hl)⟩

/-- Settles O38: Complete's flags; a host line leaves a command in flight; and an idle core changes by a request or Reset. -/
theorem busyUntilComplete : Obligations.BusyUntilComplete := by
  refine ⟨?complete, ?busy, ?idle⟩
  case complete =>
    intro s t he h
    rw [step_of_engineTurn he] at h
    obtain ⟨i, -, -, rfl⟩ := engineComplete_next (busy_of_engineTurn he) h
    rw [completed_status]
    exact ⟨rfl, rfl⟩
  case busy =>
    intro s t hb h hreset
    cases hp : s.program with
    | nil =>
      cases (hostStep_nil hp).symm.trans h
      exact ⟨hb, rfl, rfl, rfl, rfl, rfl, rfl, rfl⟩
    | cons l rest =>
      obtain ⟨hbusy, hdone, hcmd, hdin, hkey, haux, hdout, hrk, -, -⟩ :=
        hostLine_stillInFlight (s := takeLine rest s) hb ((hostStep_cons hp).symm.trans h)
          (fun hl => hreset ⟨rest, hl ▸ hp⟩)
      exact ⟨hbusy, hdone, hcmd, hdin, hkey, haux, hdout, hrk⟩
  case idle =>
    intro s t hb h hrequest hreset
    rcases step_next h with ⟨hbusy, -⟩ | ⟨-, -, rfl⟩ | ⟨-, l, rest, hp, hl⟩
    · simp [hb] at hbusy
    · exact ⟨hb, rfl, rfl, rfl⟩
    · obtain ⟨hstatus, hdout, hrk⟩ := hostLine_quiet hl
        (fun hw => hrequest ((requestNext_iff_writeNext s).2 (writeNext_of_writesIndex hp hw)))
        (fun hl => hreset ⟨rest, hl ▸ hp⟩)
      rw [hstatus]
      exact ⟨hb, rfl, hdout, hrk⟩

end Sys2Proof.Machine
end

section
/-! Reads, the STATUS word and the host's programs (20_memory.md R51; 10_state.md R29; 30_encoding.md R79; 70_reset_and_hazards.md
R186, R187). -/

namespace Sys2Proof.Machine

open Sys2Proof.Claims

/-- The indices of RK are 16 to 31 (20_memory.md R53). -/
theorem ge_sixteen_iff (idx : BitVec 5) : idx.toNat ≥ 16 ↔ ∃ i, regOf idx = .rk i := by
  simp only [regOf_eq_rk]
  have hlt := idx.isLt
  exact ⟨fun h => ⟨⟨idx.toNat - 16, by omega⟩, by simp only; omega⟩, fun ⟨i, hi⟩ => by omega⟩

/-- A read is a draw exactly where it reads DOUT or RK with its command in flight. -/
theorem inFlightTarget_iff (idx : BitVec 5) (s : State) :
    inFlightTarget (regOf idx) s = true ↔
      (idx = 5 ∧ s.status.busy = true ∧ s.latCmd.op ≠ 2) ∨ (idx.toNat ≥ 16 ∧ s.status.busy = true ∧ s.latCmd.op = 2) := by
  rw [← regOf_eq_dout, ge_sixteen_iff]
  cases regOf idx <;> simp [inFlightTarget]

/-- Settles O43: the test for a read in flight is the rule's, by the index. -/
theorem readsInFlightAreDraws : Obligations.ReadsInFlightAreDraws := by
  intro idx s
  have hiff := inFlightTarget_iff idx s
  by_cases h : inFlightTarget (regOf idx) s = true
  · rw [if_pos (hiff.1 h), hostRead, if_pos h]
  · rw [if_neg (mt hiff.2 h), hostRead, if_neg h]

/-- Settles O44: the fields of the word lie one above the other, and STATUS is not written at the port. -/
theorem statusWordLayout : Obligations.StatusWordLayout := by
  refine ⟨fun f j => ?_, fun _ _ => rfl⟩
  simp only [statusWord, BitVec.getLsbD_setWidth, BitVec.getLsbD_append, BitVec.getLsbD_ofBool, BitVec.getLsbD_zero]
  by_cases hlow : j < 12
  · interval_cases j <;> simp
  · obtain ⟨k, rfl⟩ := Nat.exists_eq_add_of_le' (Nat.le_of_not_lt hlow)
    simp

/-- Settles O46: a round of WAIT is one exact read of STATUS, whose bit 0 is BUSY. -/
theorem waitPollsUntilIdle : Obligations.WaitPollsUntilIdle := by
  intro s x
  refine ⟨_, rfl, ?_⟩
  rw [pollStatus_eq]
  exact ⟨rfl, varValue_setVar_same _ _ _, fun y hy => varValue_setVar_other _ _ hy, fun hb => if_pos hb,
    fun hb => if_neg (by simp [hb])⟩

/-- One step, and the steps after it. -/
theorem stepN_succ {s t : State} (h : step s = .next t) (k : Nat) : stepN (k + 1) s = stepN k t := by
  simp [stepN, h]

/-- One step after some. -/
theorem stepN_add {k : Nat} {s t : State} (h : stepN k s = .next t) (m : Nat) : stepN (k + m) s = stepN m t := by
  induction k generalizing s with
  | zero =>
    cases h
    rw [Nat.zero_add]
  | succ k ih =>
    simp only [stepN] at h
    split at h
    · rename_i u hu
      rw [Nat.add_right_comm, stepN_succ hu, ih h]
    · cases h
    · cases h

/-- The value of a register at the port does not depend on the host's own fields. -/
theorem regValue_takeLine (r : Reg) (rest : List HostLine) (s : State) : regValue r (takeLine rest s) = regValue r s := by
  cases r <;> rfl

/-- The state after a read of `v` into the variable `x`, with the line taken. -/
def afterRead (x : Nat) (v : Word) (rest : List HostLine) (s : State) : State :=
  { takeLine rest s with vars := setVar x v s.vars }

/-- A read on an idle core assigns the register's value. -/
theorem step_read {s : State} {r : Reg} {x : Nat} {rest : List HostLine} (hb : s.status.busy = false)
    (hp : s.program = lineRd r (some x) :: rest) :
    step s = .next (afterRead x (regValue r s) rest s) := by
  rw [step_idle hb hp, lineRd, hostLine, hostRead_idle (s := takeLine rest s) hb, regOf_regIndex, regValue_takeLine]
  rfl

/-- The two lines of MOVE on an idle core are a host write of the source's value to the destination. -/
theorem stepN_move {s t : State} {dst src : Reg} {x : Nat} {rest : List HostLine} (hb : s.status.busy = false)
    (hp : s.program = linesMove dst src x ++ rest)
    (hw : hostWrite (regIndex dst) (regValue src s)
      (takeLine rest (afterRead x (regValue src s) (lineWr dst (.var x) :: rest) s)) = .next t) : stepN 2 s = .next t := by
  have hwrite : step (afterRead x (regValue src s) (lineWr dst (.var x) :: rest) s) = .next t := by
    rw [step_idle (s := afterRead x _ _ s) hb rfl, lineWr, hostLine, ← hw]
    exact congrArg (hostWrite _ · _) (varValue_setVar_same _ _ _)
  exact (stepN_succ (step_read hb hp) 1).trans (stepN_succ hwrite 0)

/-- Settles O47: the second line writes the value that the first one read. -/
theorem moveCopiesARegister : Obligations.MoveCopiesARegister := by
  intro s src x rest hb _
  exact ⟨fun hp => ⟨_, stepN_move hb hp rfl, rfl, rfl, rfl, rfl, rfl, rfl, rfl⟩,
    fun hp => ⟨_, stepN_move hb hp rfl, rfl, rfl, rfl, rfl, rfl, rfl, rfl⟩,
    fun hp => ⟨_, stepN_move hb hp rfl, rfl, rfl, rfl, rfl, rfl, rfl, rfl⟩⟩

end Sys2Proof.Machine
end

section
/-! The free latency of a command in flight, and the lines of RUN (70_reset_and_hazards.md R187; 30_encoding.md R79). -/

namespace Sys2Proof.Machine

open Sys2Proof.Claims

/-- A host write leaves the host's program. -/
theorem hostWrite_program {idx : BitVec 5} {v : Word} {s t : State} (h : hostWrite idx v s = .next t) :
    t.program = s.program := by
  rcases hostWrite_next h with ⟨-, hreq⟩ | ⟨-, rfl⟩ | ⟨-, rfl⟩ | ⟨-, rfl⟩ | rfl
  · rcases commandRequest_next hreq with ⟨-, rfl⟩ | ⟨-, ⟨_, -, rfl⟩ | ⟨_, -, rfl⟩⟩ <;> rfl
  all_goals rfl

/-- A host line that is no bus access leaves at most itself in front of the program. -/
theorem mem_program_of_hostLine {l l' : HostLine} {s t : State} (hl : isBusLine l = false) (h : hostLine l s = .next t)
    (hmem : l' ∈ t.program) : l' ∈ l :: s.program := by
  cases l with
  | wr idx v => exact List.mem_cons_of_mem _ (hostWrite_program h ▸ hmem)
  | rd idx x =>
    cases h
    obtain ⟨vs, d, e, -⟩ := assign_hostRead idx x (hostRead idx s).1 s
    rw [e] at hmem
    exact List.mem_cons_of_mem _ hmem
  | wait x =>
    cases h
    rw [pollStatus_eq] at hmem
    by_cases hb : s.status.busy = true
    · rwa [if_pos hb] at hmem
    · rw [if_neg hb] at hmem
      exact List.mem_cons_of_mem _ hmem
  | reset => cases h; exact List.mem_cons_of_mem _ hmem
  | busWr => cases hl
  | busRd => cases hl

/-- Until its latency has passed, the host's lines are the steps of a command in flight. -/
theorem engineTurn_busy {s : State} (hb : s.status.busy = true) :
    engineTurn s = true ∨
      ∃ l rest, s.program = l :: rest ∧ s.waited < Config.latency s.accepted ∧ step s = hostLine l (takeLine rest s) := by
  by_cases he : engineTurn s = true
  · exact .inl he
  · have he' : engineTurn s = false := eq_false_of_ne_true he
    cases hp : s.program with
    | nil => simp [engineTurn, hb, hp] at he
    | cons l rest =>
      refine .inr ⟨l, rest, rfl, ?_, (step_of_not_engineTurn he').trans (hostStep_cons hp)⟩
      rw [engineTurn_busy_cons hb hp] at he'
      exact Nat.lt_of_not_le (of_decide_eq_false he')

/-- Settles O39, by induction on the host steps that the latency leaves: each keeps the command in flight and counts one. -/
theorem engineTurnComes : Obligations.EngineTurnComes := by
  intro s
  induction hn : Config.latency s.accepted - s.waited generalizing s with
  | zero =>
    intro hb _
    rcases engineTurn_busy hb with he | ⟨_, _, -, hlt, -⟩
    · exact ⟨0, s, Nat.le_refl 0, rfl, hb, he, rfl, rfl, rfl, rfl, rfl, rfl⟩
    · omega
  | succ n ih =>
    intro hb hlines
    rcases engineTurn_busy hb with he | ⟨l, rest, hp, hlt, hstep⟩
    · exact ⟨0, s, Nat.zero_le _, rfl, hb, he, rfl, rfl, rfl, rfl, rfl, rfl⟩
    · obtain ⟨hreset, hbus⟩ := hlines l (hp ▸ List.mem_cons_self)
      obtain ⟨u, hu⟩ : ∃ u, hostLine l (takeLine rest s) = .next u := by
        rcases hostLine_outcome l (takeLine rest s) with hu | ⟨_, -, -, ⟨_, _, rfl⟩ | ⟨_, _, _, rfl⟩⟩
        · exact hu
        · cases hbus
        · cases hbus
      obtain ⟨hbusy, -, hcmd, hdin, hkey, haux, hdout, hrk, hwaited, haccepted⟩ := hostLine_stillInFlight (s := takeLine rest s) hb hu hreset
      have hleft : Config.latency u.accepted - u.waited = n := by
        rw [haccepted, hwaited, takeLine_accepted, takeLine_waited]
        omega
      have hrest : ∀ l' ∈ u.program, l' ≠ .reset ∧ isBusLine l' = false := fun l' hl' =>
        hlines l' (hp ▸ mem_program_of_hostLine hbus hu hl')
      obtain ⟨k, t, hk, ht, htb, hte, h1, h2, h3, h4, h5, h6⟩ := ih u hleft hbusy hrest
      exact ⟨k + 1, t, Nat.succ_le_succ hk, (stepN_succ (hstep.trans hu) k).trans ht, htb, hte, h1.trans hcmd, h2.trans hdin,
        h3.trans hkey, h4.trans haux, h5.trans hdout, h6.trans hrk⟩

/-- `s` after some rounds of WAIT that have left the line. -/
def afterPolls (vs : List (Nat × Word)) (n : Nat) (s : State) : State := { s with vars := vs, waited := n }

/-- A round of WAIT of a host whose step it is. -/
theorem step_wait {s : State} {x : Nat} {rest : List HostLine} (hp : s.program = .wait x :: rest)
    (he : step s = hostLine (.wait x) (takeLine rest s)) :
    step s = .next (afterPolls (setVar x (statusWord s.status) s.vars) (s.waited + 1)
      { s with program := if s.status.busy = true then s.program else rest }) := by
  rw [he, hostLine, pollStatus_eq, takeLine_status, takeLine_program, takeLine_vars, hp]
  rfl

/-- A host that polls a command in flight comes to the engine's turn with nothing changed but its variables and the count of
its steps. -/
theorem wait_reaches_engineTurn {s : State} {x : Nat} {rest : List HostLine} (hb : s.status.busy = true)
    (hp : s.program = .wait x :: rest) :
    ∃ k vs n, stepN k s = .next (afterPolls vs n s) ∧ engineTurn (afterPolls vs n s) = true := by
  induction hn : Config.latency s.accepted - s.waited generalizing s with
  | zero =>
    rcases engineTurn_busy hb with he | ⟨_, _, -, hlt, -⟩
    · exact ⟨0, s.vars, s.waited, rfl, he⟩
    · omega
  | succ n ih =>
    rcases engineTurn_busy hb with he | ⟨l, rest', hp', hlt, hstep⟩
    · exact ⟨0, s.vars, s.waited, rfl, he⟩
    · obtain ⟨rfl, rfl⟩ := List.cons.inj (hp'.symm.trans hp)
      have hpoll := step_wait hp hstep
      rw [if_pos hb] at hpoll
      obtain ⟨k, vs, m, hk, he⟩ := ih (s := afterPolls _ (s.waited + 1) s) hb hp
        (show Config.latency s.accepted - (s.waited + 1) = n by omega)
      exact ⟨k + 1, vs, m, (stepN_succ hpoll k).trans hk, he⟩

/-- Settles O48: the request latches the operands, the host polls until the engine's turn, Complete writes the ciphertext, and
the last poll reads STATUS of an ending without error. -/
theorem runEncryptEndsWithTheCiphertext : Obligations.RunEncryptEndsWithTheCiphertext := by
  intro s x rest hb hp
  have hrequest := (step_request hb hp rfl).trans (exec_twice (i := .encrypt) (s := takeLine _ s) hb rfl).1
  obtain ⟨k, vs, n, hk, he⟩ := wait_reaches_engineTurn (x := x) (rest := rest)
    (s := latchCommand .encrypt (clearFlags (takeLine (.wait x :: rest) s))) rfl rfl
  have hcomplete := (step_of_engineTurn he).trans (engineComplete_encrypt_in_flight ⟨rfl, rfl⟩)
  have hlast := (stepN_succ hcomplete 1).trans (stepN_succ (step_wait (x := x) (rest := rest) rfl (step_idle rfl rfl)) 0)
  have hsteps := (stepN_succ hrequest (k + 2)).trans ((stepN_add hk 2).trans hlast)
  have hword : statusWord ⟨false, true, false, false, 0⟩ = 2 := by decide
  exact ⟨_, _, hsteps, rfl, rfl, rfl, rfl, rfl, rfl, hword, (varValue_setVar_same x _ _).trans hword⟩

end Sys2Proof.Machine
end

section
/-! The bus adapter: big-endian bytes, and the index that an access reaches (20_memory.md R52, R55, R56; log 6). -/

namespace Sys2Proof.Machine

open Sys2Proof.Claims

/-- The low byte of a shifted word, below the bits above it, is the word shifted by one byte less. -/
theorem shiftLeft_or_low_byte (v : Word) (k : Nat) :
    ((v >>> (k + 8)) <<< 8) ||| (v.extractLsb' k 8).setWidth 64 = v >>> k := by
  ext j hj
  simp only [BitVec.getElem_or, BitVec.getElem_shiftLeft, BitVec.getElem_ushiftRight, BitVec.getElem_setWidth,
    BitVec.getLsbD_extractLsb']
  by_cases h8 : j < 8
  · simp [h8]
  · have hadd : k + 8 + (j - 8) = k + j := by omega
    simp [h8, hadd]

/-- The bytes of a word give it back. -/
theorem wordOfBytes_bytesOfWord (v : Word) : wordOfBytes (bytesOfWord v) = v := by
  have htop : v >>> 64 = 0 := BitVec.ushiftRight_eq_zero (Nat.le_refl 64)
  simp only [wordOfBytes, bytesOfWord, List.foldl_cons, List.foldl_nil]
  rw [← htop, shiftLeft_or_low_byte v 56, shiftLeft_or_low_byte v 48, shiftLeft_or_low_byte v 40, shiftLeft_or_low_byte v 32,
    shiftLeft_or_low_byte v 24, shiftLeft_or_low_byte v 16, shiftLeft_or_low_byte v 8, shiftLeft_or_low_byte v 0,
    BitVec.ushiftRight_zero]

/-- Index `i` sits at CORE_BASE + 8i. -/
theorem busIndex_aligned (idx : BitVec 5) : busIndex (Config.coreBase + 8 * idx.toNat) 8 = .ok idx := by
  have hlt := idx.isLt
  have hoff : Config.coreBase + 8 * idx.toNat - Config.coreBase = 8 * idx.toNat := Nat.add_sub_cancel_left ..
  rw [busIndex, if_neg (by omega), if_neg (by omega), hoff, Nat.mul_div_cancel_left _ (by decide), BitVec.ofNat_toNat,
    BitVec.setWidth_eq]

/-- A misaligned or narrow access inside the window is partial. -/
theorem busIndex_partial {off n : Nat} (hoff : off < 256) (h : off % 8 ≠ 0 ∨ n ≠ 8) :
    busIndex (Config.coreBase + off) n = .error .partialAccess := by
  have hsub : Config.coreBase + off - Config.coreBase = off := Nat.add_sub_cancel_left ..
  rw [busIndex, if_neg (by omega), if_pos (hsub.symm ▸ h)]

/-- An access at an address outside the window reaches no register. -/
theorem busIndex_outside {addr : Nat} (n : Nat) (h : addr < Config.coreBase ∨ Config.coreBase + 256 ≤ addr) :
    busIndex addr n = .error .outsideWindow := if_pos h

/-- A bus write that reaches a register is its host write. -/
theorem hostLine_busWr_ok {addr : Nat} {bytes : List Byte} {idx : BitVec 5} (h : busIndex addr bytes.length = .ok idx)
    (s : State) : hostLine (.busWr addr bytes) s = hostWrite idx (wordOfBytes bytes) s := by
  simp only [hostLine, h]

/-- A bus read that reaches a register is its host read. -/
theorem hostLine_busRd_ok {addr n : Nat} {idx : BitVec 5} (h : busIndex addr n = .ok idx) (x : Option Nat) (s : State) :
    hostLine (.busRd addr n x) s = hostLine (.rd idx x) s := by
  simp only [hostLine, h, wordOfBytes_bytesOfWord]

/-- A bus write that reaches none is refused. -/
theorem hostLine_busWr_error {addr : Nat} {bytes : List Byte} {r : Refusal} (h : busIndex addr bytes.length = .error r)
    (s : State) : hostLine (.busWr addr bytes) s = .refused r := by
  simp only [hostLine, h]

/-- A bus read that reaches none is refused. -/
theorem hostLine_busRd_error {addr n : Nat} {r : Refusal} (h : busIndex addr n = .error r) (x : Option Nat) (s : State) :
    hostLine (.busRd addr n x) s = .refused r := by
  simp only [hostLine, h]

/-- Settles O49: the adapter's answer is decided by the index that the access reaches. -/
theorem busAccessIsTheTransaction : Obligations.BusAccessIsTheTransaction := by
  refine ⟨fun v => ⟨rfl, fun i => ?byte⟩, wordOfBytes_bytesOfWord, ?write, ?read, ?part, ?outside⟩
  case byte =>
    obtain ⟨i, hi⟩ := i
    interval_cases i <;> rfl
  case write =>
    intro idx bytes s hlen
    exact hostLine_busWr_ok (hlen.symm ▸ busIndex_aligned idx) s
  case read => exact fun idx => hostLine_busRd_ok (busIndex_aligned idx)
  case part =>
    intro off n bytes x s hoff
    exact ⟨fun h => hostLine_busWr_error (busIndex_partial hoff h) s, fun h => hostLine_busRd_error (busIndex_partial hoff h) x s⟩
  case outside =>
    intro addr n bytes x s h
    exact ⟨hostLine_busWr_error (busIndex_outside _ h) s, hostLine_busRd_error (busIndex_outside n h) x s⟩

end Sys2Proof.Machine
end
